-- ==== Sys2Proof/Word.lean ====
section
/-! DEFINITION. The word types of the core and their plainest arithmetic (00_scope.md R8, R10). -/

namespace Sys2Proof

/-- An 8-bit unsigned value: a register, a timer, a memory byte (00_scope.md R8). -/
abbrev Byte := BitVec 8

/-- A 16-bit unsigned value: I, PC, a stack entry, an instruction word (00_scope.md R8). -/
abbrev Word := BitVec 16

/-- The 12-bit address immediate `nnn` (30_encoding.md R71). -/
abbrev Addr12 := BitVec 12

/-- A register number x or y, 0 to 15 (30_encoding.md R71, R72); also a key number (10_state.md R30). -/
abbrev RegNum := Fin 16

/-- V0, the register `JP V0, nnn` names implicitly (10_state.md R21). -/
abbrev regV0 : RegNum := 0

/-- VF, the register that doubles as the flag register (10_state.md R22). -/
abbrev regVF : RegNum := 15

/-- `zext_16(v)`: widen an unsigned value with zeros (00_scope.md R10). -/
def zext16 {n : Nat} (v : BitVec n) : Word := v.setWidth 16

end Sys2Proof
end

