-- ==== Sys2Proof/Config.lean ====
section
/-! DEFINITION. What the implementation fixes (the parameters of 00_scope.md R7), and the one free value: the answer of
the host's entropy source. -/

namespace Sys2Proof

/-- An answer of the host's random-byte source: `ok(b)` or `fail` (60_exceptions.md R226). -/
inductive EntropyAnswer where
  | ok (b : Byte)
  | fail
  deriving DecidableEq, Repr, Inhabited

/-- FREE VALUE (log 1): the answer the host's source gives to request number n when none stands ready in
`State.entropyPending`. It has no body, so nothing can be proved about it (60_exceptions.md R226: "a free draw under
no law"). -/
opaque Config.freeEntropy : Nat → EntropyAnswer

/-- MEM_SIZE: addresses 0x000 to 0xFFF (00_scope.md R7, 20_memory.md R50). -/
abbrev Config.memSize : Nat := 4096

/-- PROG_BASE: the program load address and the reset PC (00_scope.md R7). -/
abbrev Config.progBase : Nat := 0x200

/-- PROG_MAX: the most bytes a program may have, 3584 (00_scope.md R7). -/
abbrev Config.progMax : Nat := Config.memSize - Config.progBase

/-- FONT_BASE (00_scope.md R7). -/
abbrev Config.fontBase : Nat := 0x000

/-- FONT_SIZE: 16 glyphs of 5 bytes (00_scope.md R7). -/
abbrev Config.fontSize : Nat := 80

/-- FONT_GLYPH_STRIDE (00_scope.md R7). -/
abbrev Config.fontStride : Nat := 5

/-- STACK_DEPTH (00_scope.md R7). -/
abbrev Config.stackDepth : Nat := 16

/-- DISP_W, the number of columns (00_scope.md R7). -/
abbrev Config.dispW : Nat := 64

/-- DISP_H, the number of rows (00_scope.md R7). -/
abbrev Config.dispH : Nat := 32

end Sys2Proof
end

