-- ==== Sys2Proof/Syntax.lean ====
section
/-! DEFINITION. The instructions: one constructor per row of spec/opcode_table.json (30_encoding.md R75, R76), and the
assembler's lines as data (30_encoding.md R90, 00_scope.md R15). -/

namespace Sys2Proof

/-- The operation descriptor: 34 constructors, each carrying the fields 30_encoding.md R76 lists, the ignored y of
SHR and SHL included (R75). Register numbers are bounded by their type; the row count of DRW is a count, a `Nat`, and
`Instr.wellFormed` bounds it by the 4-bit field that holds it (R71, R72). -/
inductive Instr where
  /-- 00EE `RET` (R101) -/
  | ret
  /-- 1nnn `JP nnn` (R102) -/
  | jp (nnn : Addr12)
  /-- 2nnn `CALL nnn` (R103) -/
  | call (nnn : Addr12)
  /-- Bnnn `JP V0, nnn` (R104) -/
  | jpV0 (nnn : Addr12)
  /-- 3xkk `SE Vx, kk` (R105) -/
  | seVB (x : RegNum) (kk : Byte)
  /-- 4xkk `SNE Vx, kk` (R106) -/
  | sneVB (x : RegNum) (kk : Byte)
  /-- 5xy0 `SE Vx, Vy` (R107) -/
  | seVV (x y : RegNum)
  /-- 9xy0 `SNE Vx, Vy` (R108) -/
  | sneVV (x y : RegNum)
  /-- 6xkk `LD Vx, kk` (R121) -/
  | ldVB (x : RegNum) (kk : Byte)
  /-- 7xkk `ADD Vx, kk` (R122) -/
  | addVB (x : RegNum) (kk : Byte)
  /-- 8xy0 `LD Vx, Vy` (R123) -/
  | ldVV (x y : RegNum)
  /-- 8xy1 `OR Vx, Vy` (R124) -/
  | orVV (x y : RegNum)
  /-- 8xy2 `AND Vx, Vy` (R125) -/
  | andVV (x y : RegNum)
  /-- 8xy3 `XOR Vx, Vy` (R126) -/
  | xorVV (x y : RegNum)
  /-- 8xy4 `ADD Vx, Vy` (R127) -/
  | addVV (x y : RegNum)
  /-- 8xy5 `SUB Vx, Vy` (R128) -/
  | subVV (x y : RegNum)
  /-- 8xy6 `SHR Vx {, Vy}`, y ignored (R129) -/
  | shr (x y : RegNum)
  /-- 8xy7 `SUBN Vx, Vy` (R130) -/
  | subnVV (x y : RegNum)
  /-- 8xyE `SHL Vx {, Vy}`, y ignored (R131) -/
  | shl (x y : RegNum)
  /-- Cxkk `RND Vx, kk` (R132) -/
  | rnd (x : RegNum) (kk : Byte)
  /-- Annn `LD I, nnn` (R141) -/
  | ldI (nnn : Addr12)
  /-- Fx1E `ADD I, Vx` (R142) -/
  | addIV (x : RegNum)
  /-- Fx29 `LD F, Vx` (R144) -/
  | ldFV (x : RegNum)
  /-- Fx33 `LD B, Vx` (R145) -/
  | ldBV (x : RegNum)
  /-- Fx55 `LD [I], Vx` (R146) -/
  | ldMemV (x : RegNum)
  /-- Fx65 `LD Vx, [I]` (R147) -/
  | ldVMem (x : RegNum)
  /-- Fx07 `LD Vx, DT` (R160) -/
  | ldVDT (x : RegNum)
  /-- Fx15 `LD DT, Vx` (R161) -/
  | ldDTV (x : RegNum)
  /-- Fx18 `LD ST, Vx` (R162) -/
  | ldSTV (x : RegNum)
  /-- Ex9E `SKP Vx` (R163) -/
  | skp (x : RegNum)
  /-- ExA1 `SKNP Vx` (R164) -/
  | sknp (x : RegNum)
  /-- Fx0A `LD Vx, K` (R165) -/
  | ldVK (x : RegNum)
  /-- 00E0 `CLS` (R180) -/
  | cls
  /-- Dxyn `DRW Vx, Vy, n` (R181) -/
  | drw (x y : RegNum) (n : Nat)
  deriving DecidableEq, Repr

/-- The assembler's mnemonics (30_encoding.md R76, R90). -/
inductive Mnemonic where
  | RET | JP | CALL | SE | SNE | LD | ADD | OR | AND | XOR | SUB | SHR | SUBN | SHL | RND | SKP | SKNP | CLS | DRW
  deriving DecidableEq, Repr

/-- An assembler operand (30_encoding.md R90): a register, a constant, or one of the special operands. Numbers are the
ones the programmer wrote, not yet checked against a field's width. -/
inductive AsmOperand where
  | reg (r : Nat)
  | const (n : Nat)
  /-- `I` -/
  | index
  /-- `DT` -/
  | delayTimer
  /-- `ST` -/
  | soundTimer
  /-- `K`, the key wait -/
  | keyWait
  /-- `F`, the font glyph -/
  | fontGlyph
  /-- `B`, the decimal digits -/
  | bcd
  /-- `[I]`, memory at I -/
  | memAtIndex
  deriving DecidableEq, Repr

/-- One line of assembly: a mnemonic and its operands (30_encoding.md R90: "One instruction per line"). -/
structure AsmLine where
  mnemonic : Mnemonic
  operands : List AsmOperand
  deriving DecidableEq, Repr

end Sys2Proof
end

