-- ==== Sys2Proof/WellFormed.lean ====
section
/-! DEFINITION. Which instructions have an encoding, and which assembler operands fit their field (30_encoding.md R71,
R72, R90). Register numbers, bytes and 12-bit addresses fit by their type; the row count of DRW is checked here. -/

namespace Sys2Proof

/-- `n` is an unsigned row count, 0 to 15 (30_encoding.md R72): it fits the nibble w[3:0]. -/
def rowCountFits (n : Nat) : Bool := n < 16

/-- A register operand names V0 to VF (30_encoding.md R90). -/
def regFits (r : Nat) : Bool := r < 16

/-- `kk` is a byte constant (30_encoding.md R90). -/
def byteFits (n : Nat) : Bool := n < 256

/-- `nnn` is a 12-bit address constant (30_encoding.md R90). -/
def addrFits (n : Nat) : Bool := n < 4096

/-- The instruction has an encoding (30_encoding.md R75, R76). -/
def Instr.wellFormed : Instr → Bool
  | .drw _ _ n => rowCountFits n
  | .ret | .jp _ | .call _ | .jpV0 _ | .seVB _ _ | .sneVB _ _ | .seVV _ _ | .sneVV _ _ | .ldVB _ _ | .addVB _ _
  | .ldVV _ _ | .orVV _ _ | .andVV _ _ | .xorVV _ _ | .addVV _ _ | .subVV _ _ | .shr _ _ | .subnVV _ _ | .shl _ _
  | .rnd _ _ | .ldI _ | .addIV _ | .ldFV _ | .ldBV _ | .ldMemV _ | .ldVMem _ | .ldVDT _ | .ldDTV _ | .ldSTV _
  | .skp _ | .sknp _ | .ldVK _ | .cls => true

end Sys2Proof
end

