-- ==== Sys2Proof/Decode.lean ====
section
/-! DEFINITION. The decoder (30_encoding.md R71 to R74), the encoder written from the same table (R75, R76), the opcode
table as mask and match rows (R77, spec/opcode_table.json), and the assembler spelling of every instruction (R90). The bit
patterns are the spec's own, from general knowledge (log 5). -/

namespace Sys2Proof

/-! ## Fields (R71) -/

/-- `op`, w[15:12]. -/
def fieldOp (w : Word) : Nat := (w.extractLsb' 12 4).toNat

/-- `x`, w[11:8]. -/
def fieldX (w : Word) : RegNum := ⟨(w.extractLsb' 8 4).toNat, (w.extractLsb' 8 4).isLt⟩

/-- `y`, w[7:4]. -/
def fieldY (w : Word) : RegNum := ⟨(w.extractLsb' 4 4).toNat, (w.extractLsb' 4 4).isLt⟩

/-- `n`, w[3:0]. -/
def fieldN (w : Word) : Nat := (w.extractLsb' 0 4).toNat

/-- `kk`, w[7:0]. -/
def fieldKK (w : Word) : Byte := w.extractLsb' 0 8

/-- `nnn`, w[11:0]. -/
def fieldNNN (w : Word) : Addr12 := w.extractLsb' 0 12

/-! ## Decode (R73, R74) -/

/-- What the decoder answers. -/
inductive Decoded where
  /-- an operation descriptor (R75) -/
  | instr (i : Instr)
  /-- the word is not in the opcode table (R74); it is the fault's info (60_exceptions.md R202) -/
  | unknownOpcode (w : Word)
  /-- fewer than two bytes stand there: no word at all (R70) -/
  | truncated
  deriving DecidableEq, Repr

/-- `0x0`: "`0x00E0` and `0x00EE` are tested before the rest of `0x0nnn`, which is unknown" (R77). -/
def decodeOp0 (w : Word) : Decoded :=
  if w = 0x00E0 then .instr .cls
  else if w = 0x00EE then .instr .ret
  else .unknownOpcode w

/-- `0x8`: by the low nibble. -/
def decodeOp8 (w : Word) : Decoded :=
  match fieldN w with
  | 0x0 => .instr (.ldVV (fieldX w) (fieldY w))
  | 0x1 => .instr (.orVV (fieldX w) (fieldY w))
  | 0x2 => .instr (.andVV (fieldX w) (fieldY w))
  | 0x3 => .instr (.xorVV (fieldX w) (fieldY w))
  | 0x4 => .instr (.addVV (fieldX w) (fieldY w))
  | 0x5 => .instr (.subVV (fieldX w) (fieldY w))
  | 0x6 => .instr (.shr (fieldX w) (fieldY w))
  | 0x7 => .instr (.subnVV (fieldX w) (fieldY w))
  | 0xE => .instr (.shl (fieldX w) (fieldY w))
  | _ => .unknownOpcode w

/-- `0xE`: by the low byte. -/
def decodeOpE (w : Word) : Decoded :=
  match (fieldKK w).toNat with
  | 0x9E => .instr (.skp (fieldX w))
  | 0xA1 => .instr (.sknp (fieldX w))
  | _ => .unknownOpcode w

/-- `0xF`: by the low byte. -/
def decodeOpF (w : Word) : Decoded :=
  match (fieldKK w).toNat with
  | 0x07 => .instr (.ldVDT (fieldX w))
  | 0x0A => .instr (.ldVK (fieldX w))
  | 0x15 => .instr (.ldDTV (fieldX w))
  | 0x18 => .instr (.ldSTV (fieldX w))
  | 0x1E => .instr (.addIV (fieldX w))
  | 0x29 => .instr (.ldFV (fieldX w))
  | 0x33 => .instr (.ldBV (fieldX w))
  | 0x55 => .instr (.ldMemV (fieldX w))
  | 0x65 => .instr (.ldVMem (fieldX w))
  | _ => .unknownOpcode w

/-- `decode(w)` of R73: a pure function of the word, classifying on the high nibble first. -/
def decodeWord (w : Word) : Decoded :=
  match fieldOp w with
  | 0x0 => decodeOp0 w
  | 0x1 => .instr (.jp (fieldNNN w))
  | 0x2 => .instr (.call (fieldNNN w))
  | 0x3 => .instr (.seVB (fieldX w) (fieldKK w))
  | 0x4 => .instr (.sneVB (fieldX w) (fieldKK w))
  | 0x5 => if fieldN w = 0 then .instr (.seVV (fieldX w) (fieldY w)) else .unknownOpcode w
  | 0x6 => .instr (.ldVB (fieldX w) (fieldKK w))
  | 0x7 => .instr (.addVB (fieldX w) (fieldKK w))
  | 0x8 => decodeOp8 w
  | 0x9 => if fieldN w = 0 then .instr (.sneVV (fieldX w) (fieldY w)) else .unknownOpcode w
  | 0xA => .instr (.ldI (fieldNNN w))
  | 0xB => .instr (.jpV0 (fieldNNN w))
  | 0xC => .instr (.rnd (fieldX w) (fieldKK w))
  | 0xD => .instr (.drw (fieldX w) (fieldY w) (fieldN w))
  | 0xE => decodeOpE w
  | 0xF => decodeOpF w
  | _ => .unknownOpcode w

/-- The word two bytes make: the byte at the lower address is the high byte (20_memory.md R56, R57). -/
def wordOfBytes (hi lo : Byte) : Word := hi ++ lo

/-- The two bytes of a word, in the order they stand in memory (20_memory.md R57). -/
def bytesOfWord (w : Word) : List Byte := [w.extractLsb' 8 8, w.extractLsb' 0 8]

/-- Decode the instruction at the head of a byte stream, "raw big-endian 16-bit instruction stream" (R70); the rest of
the stream is what follows it. -/
def decode : List Byte → Decoded × List Byte
  | hi :: lo :: rest => (decodeWord (wordOfBytes hi lo), rest)
  | [lo] => (.truncated, [lo])
  | [] => (.truncated, [])

/-- The instruction the decoder reads from a table-numbered word: bit 0 is the least significant bit of the one 16-bit
word an instruction has, and every bit from `nbits` on is 0 (log 15). -/
def decodeTableWord (nbits w : Nat) : Option Instr :=
  match (decode (bytesOfWord (BitVec.ofNat 16 (w % 2 ^ nbits)))).1 with
  | .instr i => some i
  | .unknownOpcode _ => none
  | .truncated => none

/-! ## Encode (R75, R76) -/

/-- Format N: op, nnn. -/
def formatN (op : Nat) (nnn : Addr12) : Word := BitVec.ofNat 16 (op * 0x1000 + nnn.toNat)

/-- Format XK: op, x, kk. -/
def formatXK (op : Nat) (x : RegNum) (kk : Nat) : Word := BitVec.ofNat 16 (op * 0x1000 + x.val * 0x100 + kk)

/-- Format XYN: op, x, y, n. -/
def formatXYN (op : Nat) (x y : RegNum) (n : Nat) : Word :=
  BitVec.ofNat 16 (op * 0x1000 + x.val * 0x100 + y.val * 0x10 + n)

/-- The word of an instruction (R76). -/
def encode : Instr → Word
  | .ret => 0x00EE
  | .jp nnn => formatN 0x1 nnn
  | .call nnn => formatN 0x2 nnn
  | .jpV0 nnn => formatN 0xB nnn
  | .seVB x kk => formatXK 0x3 x kk.toNat
  | .sneVB x kk => formatXK 0x4 x kk.toNat
  | .seVV x y => formatXYN 0x5 x y 0x0
  | .sneVV x y => formatXYN 0x9 x y 0x0
  | .ldVB x kk => formatXK 0x6 x kk.toNat
  | .addVB x kk => formatXK 0x7 x kk.toNat
  | .ldVV x y => formatXYN 0x8 x y 0x0
  | .orVV x y => formatXYN 0x8 x y 0x1
  | .andVV x y => formatXYN 0x8 x y 0x2
  | .xorVV x y => formatXYN 0x8 x y 0x3
  | .addVV x y => formatXYN 0x8 x y 0x4
  | .subVV x y => formatXYN 0x8 x y 0x5
  | .shr x y => formatXYN 0x8 x y 0x6
  | .subnVV x y => formatXYN 0x8 x y 0x7
  | .shl x y => formatXYN 0x8 x y 0xE
  | .rnd x kk => formatXK 0xC x kk.toNat
  | .ldI nnn => formatN 0xA nnn
  | .addIV x => formatXK 0xF x 0x1E
  | .ldFV x => formatXK 0xF x 0x29
  | .ldBV x => formatXK 0xF x 0x33
  | .ldMemV x => formatXK 0xF x 0x55
  | .ldVMem x => formatXK 0xF x 0x65
  | .ldVDT x => formatXK 0xF x 0x07
  | .ldDTV x => formatXK 0xF x 0x15
  | .ldSTV x => formatXK 0xF x 0x18
  | .skp x => formatXK 0xE x 0x9E
  | .sknp x => formatXK 0xE x 0xA1
  | .ldVK x => formatXK 0xF x 0x0A
  | .cls => 0x00E0
  | .drw x y n => formatXYN 0xD x y n

/-! ## The opcode table as mask and match rows (spec/opcode_table.json, R77) -/

/-- The row of spec/opcode_table.json an instruction belongs to, as (match, mask). -/
def Instr.row : Instr → Word × Word
  | .ret => (0x00EE, 0xFFFF)
  | .jp _ => (0x1000, 0xF000)
  | .call _ => (0x2000, 0xF000)
  | .jpV0 _ => (0xB000, 0xF000)
  | .seVB _ _ => (0x3000, 0xF000)
  | .sneVB _ _ => (0x4000, 0xF000)
  | .seVV _ _ => (0x5000, 0xF00F)
  | .sneVV _ _ => (0x9000, 0xF00F)
  | .ldVB _ _ => (0x6000, 0xF000)
  | .addVB _ _ => (0x7000, 0xF000)
  | .ldVV _ _ => (0x8000, 0xF00F)
  | .orVV _ _ => (0x8001, 0xF00F)
  | .andVV _ _ => (0x8002, 0xF00F)
  | .xorVV _ _ => (0x8003, 0xF00F)
  | .addVV _ _ => (0x8004, 0xF00F)
  | .subVV _ _ => (0x8005, 0xF00F)
  | .shr _ _ => (0x8006, 0xF00F)
  | .subnVV _ _ => (0x8007, 0xF00F)
  | .shl _ _ => (0x800E, 0xF00F)
  | .rnd _ _ => (0xC000, 0xF000)
  | .ldI _ => (0xA000, 0xF000)
  | .addIV _ => (0xF01E, 0xF0FF)
  | .ldFV _ => (0xF029, 0xF0FF)
  | .ldBV _ => (0xF033, 0xF0FF)
  | .ldMemV _ => (0xF055, 0xF0FF)
  | .ldVMem _ => (0xF065, 0xF0FF)
  | .ldVDT _ => (0xF007, 0xF0FF)
  | .ldDTV _ => (0xF015, 0xF0FF)
  | .ldSTV _ => (0xF018, 0xF0FF)
  | .skp _ => (0xE09E, 0xF0FF)
  | .sknp _ => (0xE0A1, 0xF0FF)
  | .ldVK _ => (0xF00A, 0xF0FF)
  | .cls => (0x00E0, 0xFFFF)
  | .drw _ _ _ => (0xD000, 0xF000)

/-- The 34 rows of the opcode table as (match, mask), in the order of spec/opcode_table.json. -/
def opcodeRows : List (Word × Word) :=
  [(0x00EE, 0xFFFF), (0x1000, 0xF000), (0x2000, 0xF000), (0xB000, 0xF000)]
  ++ [(0x3000, 0xF000), (0x4000, 0xF000), (0x5000, 0xF00F), (0x9000, 0xF00F)]
  ++ [(0x6000, 0xF000), (0x7000, 0xF000), (0x8000, 0xF00F), (0x8001, 0xF00F), (0x8002, 0xF00F), (0x8003, 0xF00F)]
  ++ [(0x8004, 0xF00F), (0x8005, 0xF00F), (0x8006, 0xF00F), (0x8007, 0xF00F), (0x800E, 0xF00F), (0xC000, 0xF000)]
  ++ [(0xA000, 0xF000), (0xF01E, 0xF0FF), (0xF029, 0xF0FF), (0xF033, 0xF0FF), (0xF055, 0xF0FF), (0xF065, 0xF0FF)]
  ++ [(0xF007, 0xF0FF), (0xF015, 0xF0FF), (0xF018, 0xF0FF), (0xE09E, 0xF0FF), (0xE0A1, 0xF0FF), (0xF00A, 0xF0FF)]
  ++ [(0x00E0, 0xFFFF), (0xD000, 0xF000)]

/-- A word matches a row when its fixed bits are the row's. -/
def matchesRow (w : Word) (row : Word × Word) : Bool := w &&& row.2 = row.1

/-! ## Assembler spelling (R90, R15) -/

/-- The assembler line of an instruction, both registers of SHR and SHL written out. -/
def Instr.asm : Instr → AsmLine
  | .ret => ⟨.RET, []⟩
  | .jp nnn => ⟨.JP, [.const nnn.toNat]⟩
  | .call nnn => ⟨.CALL, [.const nnn.toNat]⟩
  | .jpV0 nnn => ⟨.JP, [.reg 0, .const nnn.toNat]⟩
  | .seVB x kk => ⟨.SE, [.reg x, .const kk.toNat]⟩
  | .sneVB x kk => ⟨.SNE, [.reg x, .const kk.toNat]⟩
  | .seVV x y => ⟨.SE, [.reg x, .reg y]⟩
  | .sneVV x y => ⟨.SNE, [.reg x, .reg y]⟩
  | .ldVB x kk => ⟨.LD, [.reg x, .const kk.toNat]⟩
  | .addVB x kk => ⟨.ADD, [.reg x, .const kk.toNat]⟩
  | .ldVV x y => ⟨.LD, [.reg x, .reg y]⟩
  | .orVV x y => ⟨.OR, [.reg x, .reg y]⟩
  | .andVV x y => ⟨.AND, [.reg x, .reg y]⟩
  | .xorVV x y => ⟨.XOR, [.reg x, .reg y]⟩
  | .addVV x y => ⟨.ADD, [.reg x, .reg y]⟩
  | .subVV x y => ⟨.SUB, [.reg x, .reg y]⟩
  | .shr x y => ⟨.SHR, [.reg x, .reg y]⟩
  | .subnVV x y => ⟨.SUBN, [.reg x, .reg y]⟩
  | .shl x y => ⟨.SHL, [.reg x, .reg y]⟩
  | .rnd x kk => ⟨.RND, [.reg x, .const kk.toNat]⟩
  | .ldI nnn => ⟨.LD, [.index, .const nnn.toNat]⟩
  | .addIV x => ⟨.ADD, [.index, .reg x]⟩
  | .ldFV x => ⟨.LD, [.fontGlyph, .reg x]⟩
  | .ldBV x => ⟨.LD, [.bcd, .reg x]⟩
  | .ldMemV x => ⟨.LD, [.memAtIndex, .reg x]⟩
  | .ldVMem x => ⟨.LD, [.reg x, .memAtIndex]⟩
  | .ldVDT x => ⟨.LD, [.reg x, .delayTimer]⟩
  | .ldDTV x => ⟨.LD, [.delayTimer, .reg x]⟩
  | .ldSTV x => ⟨.LD, [.soundTimer, .reg x]⟩
  | .skp x => ⟨.SKP, [.reg x]⟩
  | .sknp x => ⟨.SKNP, [.reg x]⟩
  | .ldVK x => ⟨.LD, [.reg x, .keyWait]⟩
  | .cls => ⟨.CLS, []⟩
  | .drw x y n => ⟨.DRW, [.reg x, .reg y, .const n]⟩

/-- A register operand, V0 to VF. -/
def asmReg (r : Nat) : Option RegNum := if h : r < 16 then some ⟨r, h⟩ else none

/-- A byte constant. -/
def asmByte (n : Nat) : Option Byte := if byteFits n then some (BitVec.ofNat 8 n) else none

/-- A 12-bit address constant. -/
def asmAddr (n : Nat) : Option Addr12 := if addrFits n then some (BitVec.ofNat 12 n) else none

/-- A row count. -/
def asmRows (n : Nat) : Option Nat := if rowCountFits n then some n else none

/-- `LD` with its two operands: the destination and the source pick the instruction. -/
def assembleLd : AsmOperand → AsmOperand → Option Instr
  | .reg x, .const kk => do return .ldVB (← asmReg x) (← asmByte kk)
  | .reg x, .reg y => do return .ldVV (← asmReg x) (← asmReg y)
  | .reg x, .memAtIndex => do return .ldVMem (← asmReg x)
  | .reg x, .delayTimer => do return .ldVDT (← asmReg x)
  | .reg x, .keyWait => do return .ldVK (← asmReg x)
  | .index, .const nnn => do return .ldI (← asmAddr nnn)
  | .fontGlyph, .reg x => do return .ldFV (← asmReg x)
  | .bcd, .reg x => do return .ldBV (← asmReg x)
  | .memAtIndex, .reg x => do return .ldMemV (← asmReg x)
  | .delayTimer, .reg x => do return .ldDTV (← asmReg x)
  | .soundTimer, .reg x => do return .ldSTV (← asmReg x)
  | _, _ => none

/-- The instruction of an assembler line; none for a line the spelling of R90 does not admit. "For `SHR` and `SHL` the
second register may be omitted; it is then encoded as y = 0". -/
def AsmLine.assemble (l : AsmLine) : Option Instr :=
  match l.mnemonic, l.operands with
  | .RET, [] => some .ret
  | .JP, [.const nnn] => do return .jp (← asmAddr nnn)
  | .JP, [.reg 0, .const nnn] => do return .jpV0 (← asmAddr nnn)
  | .CALL, [.const nnn] => do return .call (← asmAddr nnn)
  | .SE, [.reg x, .const kk] => do return .seVB (← asmReg x) (← asmByte kk)
  | .SE, [.reg x, .reg y] => do return .seVV (← asmReg x) (← asmReg y)
  | .SNE, [.reg x, .const kk] => do return .sneVB (← asmReg x) (← asmByte kk)
  | .SNE, [.reg x, .reg y] => do return .sneVV (← asmReg x) (← asmReg y)
  | .LD, [dst, src] => assembleLd dst src
  | .ADD, [.reg x, .const kk] => do return .addVB (← asmReg x) (← asmByte kk)
  | .ADD, [.reg x, .reg y] => do return .addVV (← asmReg x) (← asmReg y)
  | .ADD, [.index, .reg x] => do return .addIV (← asmReg x)
  | .OR, [.reg x, .reg y] => do return .orVV (← asmReg x) (← asmReg y)
  | .AND, [.reg x, .reg y] => do return .andVV (← asmReg x) (← asmReg y)
  | .XOR, [.reg x, .reg y] => do return .xorVV (← asmReg x) (← asmReg y)
  | .SUB, [.reg x, .reg y] => do return .subVV (← asmReg x) (← asmReg y)
  | .SHR, [.reg x] => do return .shr (← asmReg x) 0
  | .SHR, [.reg x, .reg y] => do return .shr (← asmReg x) (← asmReg y)
  | .SUBN, [.reg x, .reg y] => do return .subnVV (← asmReg x) (← asmReg y)
  | .SHL, [.reg x] => do return .shl (← asmReg x) 0
  | .SHL, [.reg x, .reg y] => do return .shl (← asmReg x) (← asmReg y)
  | .RND, [.reg x, .const kk] => do return .rnd (← asmReg x) (← asmByte kk)
  | .SKP, [.reg x] => do return .skp (← asmReg x)
  | .SKNP, [.reg x] => do return .sknp (← asmReg x)
  | .CLS, [] => some .cls
  | .DRW, [.reg x, .reg y, .const n] => do return .drw (← asmReg x) (← asmReg y) (← asmRows n)
  | _, _ => none

end Sys2Proof
end

