-- ==== Sys2Proof/Machine/Flags.lean ====
section
/-! DEFINITION. What the flag-writing instructions put into VF (10_state.md R22, 41_alu.md R120, 44_display.md R181). Each
is computed on exact integers, as the rules write it. -/

namespace Sys2Proof.Machine

/-- A condition as the byte VF holds: 1 or 0. -/
def flagByte (c : Bool) : Byte := if c then 1 else 0

/-- ADD: `(s > 255) ? 1 : 0` for the exact sum s (41_alu.md R127). -/
def carryFlag (a b : Byte) : Byte := flagByte (a.toNat + b.toNat > 255)

/-- SUB and SUBN: 1 = no borrow, when the minuend is at least the subtrahend (41_alu.md R128, R130). -/
def noBorrowFlag (minuend subtrahend : Byte) : Byte := flagByte (minuend.toNat ≥ subtrahend.toNat)

/-- SHR: `a[0]`, the bit shifted out (41_alu.md R129). -/
def shiftedOutRight (a : Byte) : Byte := flagByte (a.getLsbD 0)

/-- SHL: `a[7]`, the bit shifted out (41_alu.md R131). -/
def shiftedOutLeft (a : Byte) : Byte := flagByte (a.getLsbD 7)

/-- DRW: 1 if any pixel went from set to clear (44_display.md R181). -/
def collisionFlag (collided : Bool) : Byte := flagByte collided

end Sys2Proof.Machine
end

