-- ==== Sys2Proof/Machine/Memory.lean ====
section
/-! DEFINITION. The 4096-byte memory (20_memory.md R50 to R54): its canonical form, one read and one write; and the font
(70_reset_and_hazards.md R242), since an unlisted address reads as the reset contents. -/

namespace Sys2Proof.Machine

/-- The canonical CHIP-8 font, glyph k at bytes 5k to 5k + 4: the default value of FONT (70_reset_and_hazards.md R242;
the bytes are the spec's own, from general knowledge, log 6). -/
def canonicalFont : List Byte :=
  [0xF0, 0x90, 0x90, 0x90, 0xF0] ++ [0x20, 0x60, 0x20, 0x20, 0x70]
  ++ [0xF0, 0x10, 0xF0, 0x80, 0xF0] ++ [0xF0, 0x10, 0xF0, 0x10, 0xF0]
  ++ [0x90, 0x90, 0xF0, 0x10, 0x10] ++ [0xF0, 0x80, 0xF0, 0x10, 0xF0]
  ++ [0xF0, 0x80, 0xF0, 0x90, 0xF0] ++ [0xF0, 0x10, 0x20, 0x40, 0x40]
  ++ [0xF0, 0x90, 0xF0, 0x90, 0xF0] ++ [0xF0, 0x90, 0xF0, 0x10, 0xF0]
  ++ [0xF0, 0x90, 0xF0, 0x90, 0x90] ++ [0xE0, 0x90, 0xE0, 0x90, 0xE0]
  ++ [0xF0, 0x80, 0x80, 0x80, 0xF0] ++ [0xE0, 0x90, 0x90, 0x90, 0xE0]
  ++ [0xF0, 0x80, 0xF0, 0x80, 0xF0] ++ [0xF0, 0x80, 0xF0, 0x80, 0x80]

/-- Memory: the bytes that differ from the reset contents, as (address, byte) pairs, addresses strictly rising. -/
abbrev Memory := List Host.Cell

/-- What an unlisted address reads as: its contents after `reset(FONT)`, the font at 0x000 to 0x04F and 0x00 elsewhere
(20_memory.md R51, 70_reset_and_hazards.md R241; logs 6 and 7). -/
def unlistedByte (a : Nat) : Byte := canonicalFont.getD a 0x00

/-- The canonical form: addresses strictly rising, each one an address that exists (20_memory.md R50), and no entry
equal to what an unlisted address reads as. -/
abbrev Memory.wf (m : Memory) : Prop :=
  m.Pairwise (fun c d => c.1 < d.1) ∧ ∀ c ∈ m, c.1 < Config.memSize ∧ c.2 ≠ unlistedByte c.1

/-- `MemRead(a, 1)`: the byte at a, with no side effect; the caller has checked that a exists (20_memory.md R53). -/
def Memory.read : Memory → Nat → Byte
  | [], a => unlistedByte a
  | c :: m, a => if c.1 = a then c.2 else Memory.read m a

/-- Put a cell in its place among rising addresses. -/
def Memory.insert (c : Host.Cell) : Memory → Memory
  | [] => [c]
  | d :: m => if c.1 < d.1 then c :: d :: m else d :: Memory.insert c m

/-- `MemWrite(a, 1, v)`: set the byte at a, with no other effect; the caller has checked that a exists (20_memory.md
R54). Writing what an unlisted address reads as removes the entry. -/
def Memory.write (m : Memory) (a : Nat) (v : Byte) : Memory :=
  let others := m.filter (fun c => c.1 ≠ a)
  if v = unlistedByte a then others else Memory.insert (a, v) others

/-- Write bytes upward from an address, first to last. -/
def Memory.writeBytes (m : Memory) (a : Nat) : List Byte → Memory
  | [] => m
  | b :: bs => Memory.writeBytes (m.write a b) (a + 1) bs

end Sys2Proof.Machine
end

