-- ==== Sys2Proof/Machine/State.lean ====
section
/-! DEFINITION. The state vector (10_state.md R20), plain data, its value after reset (70_reset_and_hazards.md R240), and
the reasons the core stops. -/

namespace Sys2Proof.Machine

/-- The faults (60_exceptions.md R202). A cycle that raises one ends in a NEXT state whose latch holds it (R205); a cycle
on a machine whose latch holds one changes nothing and answers it (R206), and that is the only `Outcome.fault` of the
model (log 2). -/
inductive Fault where
  /-- Raised by decode, in any cycle: the fetched word w is not in the opcode table (30_encoding.md R74). Safe: the spec
  states the fault. -/
  | unknownOpcode (w : Word)
  /-- Raised by `CALL` with SP = 16 (40_control.md R103). Safe: the spec states the fault. -/
  | stackOverflow
  /-- Raised by `RET` with SP = 0 (40_control.md R101). Safe: the spec states the fault. -/
  | stackUnderflow
  /-- Raised by the fetch with PC + 1 ≥ 4096, a = PC (20_memory.md R56), and by `LD B`, `LD [I]`, `LD Vx, [I]` and `DRW`
  with a the first address above 0xFFF (R55). Safe: where the repository wraps, the model stops (spec decision D10). -/
  | outOfBounds (a : Nat)
  /-- Raised by `RND` when the host's random source fails (41_alu.md R132). Safe: the spec states the fault. -/
  | entropySourceFailure
  /-- The error result of `load_program` with more than 3584 bytes (70_reset_and_hazards.md R243). It is returned, never
  latched, and stops nothing. Safe. -/
  | programTooLarge
  deriving DecidableEq, Repr

/-- What the model gives no meaning to. -/
inductive Refusal where
  /-- Raised by an arm of `exec` whose instruction has no meaning yet; no arm raises it. Safe: the model stops. -/
  | notModelled (mnemonic : String)
  /-- Raised by the host transaction `reset(font)` with a font that is not 80 bytes long, "not a legal input ... a model
  gives such a `reset` no step" (70_reset_and_hazards.md R240). Safe: the model stops. -/
  | fontLength
  /-- Raised by the host transaction `set_key(k, pressed)` with k outside 0..15, "not a legal input; the host must not
  pass one" (60_exceptions.md R223). Safe: the model stops. -/
  | keyNumber
  deriving DecidableEq, Repr

/-- `Disp`: 64 columns of 32 one-bit pixels, indexed column first (10_state.md R29). -/
abbrev Display := Vector (Vector Bool 32) 64

/-- The whole state of the core, one record (10_state.md R20), and two fields of the model's own for the host's entropy
source (60_exceptions.md R226, log 1). -/
structure State where
  /-- `Mem`, 0x000 to 0xFFF (20_memory.md R50) -/
  mem : Memory
  /-- `V`, V0 to VF (10_state.md R21) -/
  v : Vector Byte 16
  /-- `I` (10_state.md R25) -/
  i : Word
  /-- `PC` (10_state.md R26) -/
  pc : Word
  /-- `Stack`, sixteen return addresses (10_state.md R27) -/
  stack : Vector Word 16
  /-- `SP`, the depth, 0 to 16 (10_state.md R27) -/
  sp : Fin 17
  /-- `DT`, the delay timer (10_state.md R28) -/
  dt : Byte
  /-- `ST`, the sound timer (10_state.md R28) -/
  st : Byte
  /-- `Disp` (10_state.md R29) -/
  disp : Display
  /-- `Key`, true means pressed (10_state.md R30) -/
  key : Vector Bool 16
  /-- `Fault`, the latch (10_state.md R31) -/
  fault : Option Fault
  /-- MODEL'S OWN (log 1): answers the host's entropy source has ready, oldest first -/
  entropyPending : List EntropyAnswer
  /-- MODEL'S OWN (log 1): how often `Entropy()` has been asked -/
  entropyCount : Nat
  deriving DecidableEq, Repr

/-- The state `reset(FONT)` produces with the default font (70_reset_and_hazards.md R240, R241, R242): the font and zeros
are what unlisted memory reads as. The two entropy fields are the model's own (DESIGN CHOICE, log 1). -/
def State.reset : State where
  mem := []
  v := Vector.replicate 16 0x00
  i := 0x0000
  pc := 0x0200
  stack := Vector.replicate 16 0x0000
  sp := 0
  dt := 0
  st := 0
  disp := Vector.replicate 64 (Vector.replicate 32 false)
  key := Vector.replicate 16 false
  fault := none
  entropyPending := []
  entropyCount := 0

end Sys2Proof.Machine
end

