-- ==== Sys2Proof/Machine/Operands.lean ====
section
/-! DEFINITION. Every operand form: registers, immediates, jump targets, index-plus-offset addresses and their bounds
check, the glyph address, the key a register names, decimal digits, pixel coordinates and sprite bits. -/

namespace Sys2Proof.Machine

/-- `V[i]` (00_scope.md R11). -/
def State.readV (s : State) (r : RegNum) : Byte := s.v[r.val]

/-- The target of JP and CALL, and the value of LD I: `zext_16(nnn)` (30_encoding.md R72). -/
def addrTarget (nnn : Addr12) : Word := zext16 nnn

/-- The target of `JP V0, nnn`: `zext_16(nnn) + zext_16(V[0])` (40_control.md R104). -/
def indexedTarget (nnn : Addr12) (s : State) : Word := zext16 nnn + zext16 (s.readV regV0)

/-- The return address CALL pushes: `(PC + 2) mod 2^16` (40_control.md R103). -/
def returnAddress (s : State) : Word := s.pc + 2

/-- The effective address of access number k: I + k, an exact integer (42_memory_index.md R140). -/
def effAddr (s : State) (k : Nat) : Nat := s.i.toNat + k

/-- The first of the n addresses I, I + 1, ... that is above 0xFFF, if one is (20_memory.md R55: "the first such a"). -/
def firstOutOfBounds (s : State) (n : Nat) : Option Nat :=
  ((List.range n).map (effAddr s)).find? (fun a => a > 0xFFF)

/-- `v[3:0]`: the low nibble selects the glyph (42_memory_index.md R144) and the key (43_timers_keys.md R163). -/
def lowNibble (v : Byte) : RegNum := ⟨(v.extractLsb' 0 4).toNat, (v.extractLsb' 0 4).isLt⟩

/-- The glyph address `FONT_BASE + 5 * V[x][3:0]` (42_memory_index.md R144). -/
def glyphAddr (v : Byte) : Word := BitVec.ofNat 16 (Config.fontBase + Config.fontStride * (lowNibble v).val)

/-- `Key[V[x][3:0]]` (43_timers_keys.md R163). -/
def State.keyNamed (s : State) (v : Byte) : Bool := s.key[(lowNibble v).val]

/-- The least k with `Key[k] = true`, if one is down (43_timers_keys.md R165). -/
def State.lowestKey (s : State) : Option RegNum := (List.finRange 16).find? (fun k => s.key[k.val])

/-- The three decimal digits of a byte, most significant first: `v div 100`, `(v div 10) mod 10`, `v mod 10`
(42_memory_index.md R145). -/
def bcdDigits (v : Byte) : List Byte :=
  [BitVec.ofNat 8 (v.toNat / 100), BitVec.ofNat 8 (v.toNat / 10 % 10), BitVec.ofNat 8 (v.toNat % 10)]

/-- V0 to Vx, in order (42_memory_index.md R146). -/
def State.regBlock (s : State) (x : RegNum) : List Byte := s.v.toList.take (x.val + 1)

/-- The column of sprite pixel c: `(cx + c) mod 64` (44_display.md R181). -/
def spriteColumn (cx : Byte) (c : Nat) : Fin 64 := Fin.ofNat 64 (cx.toNat + c)

/-- The row of sprite row r: `(cy + r) mod 32` (44_display.md R181). -/
def spriteRow (cy : Byte) (r : Nat) : Fin 32 := Fin.ofNat 32 (cy.toNat + r)

/-- Bit `b[7 - c]` of a sprite row: bit 7 is the leftmost pixel (44_display.md R182). -/
def spriteBit (b : Byte) (c : Nat) : Bool := b.getLsbD (7 - c)

end Sys2Proof.Machine
end

