-- ==== Sys2Proof/Machine/Ops.lean ====
section
/-! DEFINITION. The named operations over registers, memory, stack, timers, display, entropy and the fault latch, and the
instruction fetch. Every meaning is written over these. -/

namespace Sys2Proof.Machine

/-! ## Registers (10_state.md R21, R25, R26, R28) -/

/-- `V[r] <- b`. -/
def State.setV (s : State) (r : RegNum) (b : Byte) : State := { s with v := s.v.set r.val b r.isLt }

/-- `I <- w`. -/
def State.setI (s : State) (w : Word) : State := { s with i := w }

/-- `pc <- w`: not masked, not checked (40_control.md R100). -/
def State.setPc (s : State) (w : Word) : State := { s with pc := w }

/-- `DT <- b`. -/
def State.setDT (s : State) (b : Byte) : State := { s with dt := b }

/-- `ST <- b`. -/
def State.setST (s : State) (b : Byte) : State := { s with st := b }

/-- Write a result and then the flag, so that with x = F the flag is what VF holds (41_alu.md R120). -/
def State.setVFlag (s : State) (x : RegNum) (result flag : Byte) : State := (s.setV x result).setV regVF flag

/-- `V[k] <- bs[k]` for the bytes given, from V0 upward (42_memory_index.md R147). -/
def State.setRegBlock (s : State) (x : RegNum) (byteAt : Nat → Byte) : State :=
  { s with v := Vector.ofFn fun r : Fin 16 => if r.val ≤ x.val then byteAt r.val else s.readV r }

/-! ## Program counter (00_scope.md R13) -/

/-- `advance(): pc <- (PC + 2) mod 2^16`. -/
def State.advance (s : State) : State := s.setPc (s.pc + 2)

/-- `skip_if(c): pc <- (PC + (c ? 4 : 2)) mod 2^16`. -/
def State.skipIf (s : State) (c : Bool) : State := s.setPc (s.pc + if c then 4 else 2)

/-! ## Faults (60_exceptions.md R204, R205) -/

/-- Latch a fault: `Fault <- F(info)`, and nothing else changes (60_exceptions.md R205). -/
def State.latch (s : State) (f : Fault) : State := { s with fault := some f }

/-- `raise F(info)`, the one way a cycle takes a fault: the next state is the state before the cycle with the latch set.
There is no vector, no saved PC and no mode (60_exceptions.md R210). -/
def raise (f : Fault) (s : State) : Host.Outcome State Fault Refusal := .next (s.latch f)

/-- A cycle on a machine whose latch holds f: no fetch, no change, `err(f)` (60_exceptions.md R206). There is no return
from a fault but the host's reset (R211), which is `HostCalls.hostReset`. -/
def stopped (f : Fault) : Host.Outcome State Fault Refusal := .fault f

/-! ## Memory (20_memory.md R53 to R56) -/

/-- `MemRead(a, 1)`. -/
def State.readByte (s : State) (a : Nat) : Byte := s.mem.read a

/-- Write bytes upward from I (42_memory_index.md R145, R146). -/
def State.writeAtIndex (s : State) (bs : List Byte) : State := { s with mem := s.mem.writeBytes s.i.toNat bs }

/-- Check every address of an instruction that accesses n bytes at I, I + 1, ... before it writes anything; raise
OutOfBounds for the first bad one, else go on (20_memory.md R55). -/
def checked (n : Nat) (s : State) (next : State) : Host.Outcome State Fault Refusal :=
  match firstOutOfBounds s n with
  | some a => raise (.outOfBounds a) s
  | none => .next next

/-- The instruction fetch: two byte reads at PC, high byte first; OutOfBounds(PC) when PC + 1 ≥ 4096 (20_memory.md
R56). -/
def fetch (s : State) : Except Fault Word :=
  if s.pc.toNat + 1 ≥ 4096 then .error (.outOfBounds s.pc.toNat)
  else .ok (wordOfBytes (s.readByte s.pc.toNat) (s.readByte (s.pc.toNat + 1)))

/-! ## Stack (10_state.md R27) -/

/-- `Stack[SP] <- w; SP <- SP + 1`, for SP below 16 (40_control.md R103). -/
def State.push (s : State) (w : Word) (h : s.sp.val < 16) : State :=
  { s with stack := s.stack.set s.sp.val w h, sp := ⟨s.sp.val + 1, by omega⟩ }

/-- `SP <- SP - 1; pc <- Stack[SP]`, for SP above 0 (40_control.md R101). -/
def State.popPc (s : State) (h : 0 < s.sp.val) : State :=
  { s with sp := ⟨s.sp.val - 1, by omega⟩, pc := s.stack[s.sp.val - 1]'(by omega) }

/-! ## Display (10_state.md R29, 44_display.md) -/

/-- `Disp[px][py]`. -/
def Display.pixel (d : Display) (px : Fin 64) (py : Fin 32) : Bool := d[px.val][py.val]

/-- `Disp[px][py] <- Disp[px][py] XOR 1`. -/
def Display.toggle (d : Display) (px : Fin 64) (py : Fin 32) : Display :=
  d.set px.val (d[px.val].set py.val (!d[px.val][py.val]))

/-- Every pixel 0 (44_display.md R180). -/
def Display.clear : Display := Vector.replicate 64 (Vector.replicate 32 false)

/-- One set sprite bit: note a collision if the pixel is set, then toggle it (44_display.md R181). -/
def drawPixel (px : Fin 64) (py : Fin 32) (acc : Display × Bool) : Display × Bool :=
  (acc.1.toggle px py, acc.2 || acc.1.pixel px py)

/-- One sprite row, columns 0 to 7 in order (44_display.md R181, R182). -/
def drawRow (cx : Byte) (py : Fin 32) (b : Byte) (acc : Display × Bool) : Display × Bool :=
  (List.range 8).foldl
    (fun acc c => if spriteBit b c then drawPixel (spriteColumn cx c) py acc else acc) acc

/-- The whole sprite, rows 0 to n - 1 in order, from no collision (44_display.md R181). -/
def drawSprite (cx cy : Byte) (rowByte : Nat → Byte) (n : Nat) (d : Display) : Display × Bool :=
  (List.range n).foldl (fun acc r => drawRow cx (spriteRow cy r) (rowByte r) acc) (d, false)

/-- Replace the display. -/
def State.setDisp (s : State) (d : Display) : State := { s with disp := d }

/-! ## Entropy (60_exceptions.md R226) -/

/-- The answer the next `Entropy()` call gets: the oldest one the host has ready, else the free value (log 1). -/
def State.nextEntropy (s : State) : EntropyAnswer :=
  match s.entropyPending with
  | a :: _ => a
  | [] => Config.freeEntropy s.entropyCount

/-- One `Entropy()` request has been made and answered. -/
def State.entropyAsked (s : State) : State :=
  { s with entropyPending := s.entropyPending.tail, entropyCount := s.entropyCount + 1 }

end Sys2Proof.Machine
end

