-- ==== Sys2Proof/Machine/Alu.lean ====
section
/-! DEFINITION. Register loads, arithmetic, bitwise operations, shifts and the random byte (41_alu.md R121 to R132).
Sources are read from the state before the instruction (00_scope.md R12). -/

namespace Sys2Proof.Machine

/-- `LD Vx, kk` (R121). -/
def execLdVB (x : RegNum) (kk : Byte) (s : State) : Host.Outcome State Fault Refusal := .next (s.setV x kk).advance

/-- `ADD Vx, kk` (R122): no carry is written. -/
def execAddVB (x : RegNum) (kk : Byte) (s : State) : Host.Outcome State Fault Refusal :=
  .next (s.setV x (s.readV x + kk)).advance

/-- `LD Vx, Vy` (R123). -/
def execLdVV (x y : RegNum) (s : State) : Host.Outcome State Fault Refusal := .next (s.setV x (s.readV y)).advance

/-- `OR Vx, Vy` (R124): VF is not written. -/
def execOrVV (x y : RegNum) (s : State) : Host.Outcome State Fault Refusal :=
  .next (s.setV x (s.readV x ||| s.readV y)).advance

/-- `AND Vx, Vy` (R125): VF is not written. -/
def execAndVV (x y : RegNum) (s : State) : Host.Outcome State Fault Refusal :=
  .next (s.setV x (s.readV x &&& s.readV y)).advance

/-- `XOR Vx, Vy` (R126): VF is not written. -/
def execXorVV (x y : RegNum) (s : State) : Host.Outcome State Fault Refusal :=
  .next (s.setV x (s.readV x ^^^ s.readV y)).advance

/-- `ADD Vx, Vy` (R127). -/
def execAddVV (x y : RegNum) (s : State) : Host.Outcome State Fault Refusal :=
  .next (s.setVFlag x (s.readV x + s.readV y) (carryFlag (s.readV x) (s.readV y))).advance

/-- `SUB Vx, Vy` (R128): Vx minus Vy. -/
def execSubVV (x y : RegNum) (s : State) : Host.Outcome State Fault Refusal :=
  .next (s.setVFlag x (s.readV x - s.readV y) (noBorrowFlag (s.readV x) (s.readV y))).advance

/-- `SHR Vx` (R129); y is decoded and ignored. -/
def execShr (x _y : RegNum) (s : State) : Host.Outcome State Fault Refusal :=
  .next (s.setVFlag x (s.readV x >>> 1) (shiftedOutRight (s.readV x))).advance

/-- `SUBN Vx, Vy` (R130): Vy minus Vx. -/
def execSubnVV (x y : RegNum) (s : State) : Host.Outcome State Fault Refusal :=
  .next (s.setVFlag x (s.readV y - s.readV x) (noBorrowFlag (s.readV y) (s.readV x))).advance

/-- `SHL Vx` (R131); y is decoded and ignored. -/
def execShl (x _y : RegNum) (s : State) : Host.Outcome State Fault Refusal :=
  .next (s.setVFlag x (s.readV x <<< 1) (shiftedOutLeft (s.readV x))).advance

/-- `RND Vx, kk` (R132): exactly one `Entropy()` request, whatever kk is. -/
def execRnd (x : RegNum) (kk : Byte) (s : State) : Host.Outcome State Fault Refusal :=
  .next (match s.nextEntropy with
    | .ok b => (s.entropyAsked.setV x (b &&& kk)).advance
    | .fail => s.entropyAsked.latch .entropySourceFailure)

end Sys2Proof.Machine
end

