-- ==== Sys2Proof/Machine/Control.lean ====
section
/-! DEFINITION. Control transfer and skips (40_control.md R101 to R108). -/

namespace Sys2Proof.Machine

/-- `RET` (R101). -/
def execRet (s : State) : Host.Outcome State Fault Refusal :=
  if h : 0 < s.sp.val then .next (s.popPc h) else raise .stackUnderflow s

/-- `JP nnn` (R102). -/
def execJp (nnn : Addr12) (s : State) : Host.Outcome State Fault Refusal := .next (s.setPc (addrTarget nnn))

/-- `CALL nnn` (R103). -/
def execCall (nnn : Addr12) (s : State) : Host.Outcome State Fault Refusal :=
  if h : s.sp.val < 16 then .next ((s.push (returnAddress s) h).setPc (addrTarget nnn)) else raise .stackOverflow s

/-- `JP V0, nnn` (R104). -/
def execJpV0 (nnn : Addr12) (s : State) : Host.Outcome State Fault Refusal := .next (s.setPc (indexedTarget nnn s))

/-- `SE Vx, kk` (R105). -/
def execSeVB (x : RegNum) (kk : Byte) (s : State) : Host.Outcome State Fault Refusal :=
  .next (s.skipIf (s.readV x = kk))

/-- `SNE Vx, kk` (R106). -/
def execSneVB (x : RegNum) (kk : Byte) (s : State) : Host.Outcome State Fault Refusal :=
  .next (s.skipIf (s.readV x ≠ kk))

/-- `SE Vx, Vy` (R107). -/
def execSeVV (x y : RegNum) (s : State) : Host.Outcome State Fault Refusal :=
  .next (s.skipIf (s.readV x = s.readV y))

/-- `SNE Vx, Vy` (R108). -/
def execSneVV (x y : RegNum) (s : State) : Host.Outcome State Fault Refusal :=
  .next (s.skipIf (s.readV x ≠ s.readV y))

end Sys2Proof.Machine
end

