-- ==== Sys2Proof/Machine/MemIndex.lean ====
section
/-! DEFINITION. The index register, the font address, decimal digits, and the register block store and load
(42_memory_index.md R141 to R147). -/

namespace Sys2Proof.Machine

/-- `LD I, nnn` (R141). -/
def execLdI (nnn : Addr12) (s : State) : Host.Outcome State Fault Refusal := .next (s.setI (addrTarget nnn)).advance

/-- `ADD I, Vx` (R142): modulo 2^16; VF is not written. -/
def execAddIV (x : RegNum) (s : State) : Host.Outcome State Fault Refusal :=
  .next (s.setI (s.i + zext16 (s.readV x))).advance

/-- `LD F, Vx` (R144). -/
def execLdFV (x : RegNum) (s : State) : Host.Outcome State Fault Refusal :=
  .next (s.setI (glyphAddr (s.readV x))).advance

/-- `LD B, Vx` (R145): three digit bytes at I, I + 1, I + 2. -/
def execLdBV (x : RegNum) (s : State) : Host.Outcome State Fault Refusal :=
  checked 3 s (s.writeAtIndex (bcdDigits (s.readV x))).advance

/-- `LD [I], Vx` (R146): V0 to Vx at I upward; I is unchanged. -/
def execLdMemV (x : RegNum) (s : State) : Host.Outcome State Fault Refusal :=
  checked (x.val + 1) s (s.writeAtIndex (s.regBlock x)).advance

/-- `LD Vx, [I]` (R147): V0 to Vx from I upward; I is unchanged. -/
def execLdVMem (x : RegNum) (s : State) : Host.Outcome State Fault Refusal :=
  checked (x.val + 1) s (s.setRegBlock x (fun k => s.readByte (effAddr s k))).advance

end Sys2Proof.Machine
end

