-- ==== Sys2Proof/Machine/Screen.lean ====
section
/-! DEFINITION. Clear and sprite draw (44_display.md R180, R181). -/

namespace Sys2Proof.Machine

/-- `CLS` (R180). -/
def execCls (s : State) : Host.Outcome State Fault Refusal := .next (s.setDisp Display.clear).advance

/-- The display and the collision `DRW Vx, Vy, n` makes of a state: coordinates and sprite bytes are read before
anything is written (R181). -/
def drawnSprite (x y : RegNum) (n : Nat) (s : State) : Display × Bool :=
  drawSprite (s.readV x) (s.readV y) (fun r => s.readByte (effAddr s r)) n s.disp

/-- `DRW Vx, Vy, n` (R181). -/
def execDrw (x y : RegNum) (n : Nat) (s : State) : Host.Outcome State Fault Refusal :=
  checked n s ((s.setDisp (drawnSprite x y n s).1).setV regVF (collisionFlag (drawnSprite x y n s).2)).advance

end Sys2Proof.Machine
end

