-- ==== Sys2Proof/Machine/TimersKeys.lean ====
section
/-! DEFINITION. Timers and keypad input (43_timers_keys.md R160 to R165). -/

namespace Sys2Proof.Machine

/-- `LD Vx, DT` (R160). -/
def execLdVDT (x : RegNum) (s : State) : Host.Outcome State Fault Refusal := .next (s.setV x s.dt).advance

/-- `LD DT, Vx` (R161). -/
def execLdDTV (x : RegNum) (s : State) : Host.Outcome State Fault Refusal := .next (s.setDT (s.readV x)).advance

/-- `LD ST, Vx` (R162). -/
def execLdSTV (x : RegNum) (s : State) : Host.Outcome State Fault Refusal := .next (s.setST (s.readV x)).advance

/-- `SKP Vx` (R163). -/
def execSkp (x : RegNum) (s : State) : Host.Outcome State Fault Refusal :=
  .next (s.skipIf (s.keyNamed (s.readV x)))

/-- `SKNP Vx` (R164). -/
def execSknp (x : RegNum) (s : State) : Host.Outcome State Fault Refusal :=
  .next (s.skipIf (!s.keyNamed (s.readV x)))

/-- `LD Vx, K` (R165): the lowest key that is down; with none, nothing is written and PC stays. -/
def execLdVK (x : RegNum) (s : State) : Host.Outcome State Fault Refusal :=
  match s.lowestKey with
  | some k => .next (s.setV x (BitVec.ofNat 8 k.val)).advance
  | none => .next s

end Sys2Proof.Machine
end

