-- ==== Sys2Proof/Machine/Step.lean ====
section
/-! DEFINITION. One step: the state part of `run_instruction_cycle` (60_exceptions.md R207), in the priority order of
R208. -/

namespace Sys2Proof.Machine

/-- One instruction cycle: the latched fault first, then the fetch, then decode, then the instruction (60_exceptions.md
R207, R208). -/
def step (s : State) : Host.Outcome State Fault Refusal :=
  match s.fault with
  | some f => stopped f
  | none =>
    match fetch s with
    | .error f => raise f s
    | .ok w =>
      match decodeWord w with
      | .instr i => exec i s
      | .unknownOpcode u => raise (.unknownOpcode u) s
      | .truncated => raise (.unknownOpcode w) s

/-- s with the instruction word w stored, big-endian, where the next cycle fetches it (20_memory.md R56). A fetch needs
an empty latch and a PC below 0xFFF: the latch is cleared, and a PC no fetch can use becomes 0x200 (log 15). -/
def State.withFetchWord (s : State) (nbits w : Nat) : State :=
  let pc : Word := if s.pc.toNat + 1 ≥ 4096 then 0x0200 else s.pc
  { s with
    fault := none
    pc := pc
    mem := s.mem.writeBytes pc.toNat (bytesOfWord (BitVec.ofNat 16 (w % 2 ^ nbits))) }

end Sys2Proof.Machine
end

