-- ==== Sys2Proof/Machine/HostCalls.lean ====
section
/-! DEFINITION. The transactions the host drives the core with (60_exceptions.md R201), each a function on State, and their
gathering into one transaction type. `run_instruction_cycle` is `step` with its result. -/

namespace Sys2Proof.Machine

/-! ## The result of a cycle (60_exceptions.md R207, R220) -/

/-- `StepEffects`, the result of a successful cycle (60_exceptions.md R220). It is not state (10_state.md R34). -/
structure StepEffects where
  redraw : Bool
  beeping : Bool
  deriving DecidableEq, Repr

/-- `ok(StepEffects)` or `err(fault)` (60_exceptions.md R201). -/
inductive CycleResult where
  | ok (e : StepEffects)
  | err (f : Fault)
  deriving DecidableEq, Repr

/-- "`redraw` is true exactly when the cycle executed `CLS` or `DRW`" (60_exceptions.md R220). -/
def redraws : Instr → Bool
  | .cls | .drw _ _ _ => true
  | .ret | .jp _ | .call _ | .jpV0 _ | .seVB _ _ | .sneVB _ _ | .seVV _ _ | .sneVV _ _ | .ldVB _ _ | .addVB _ _
  | .ldVV _ _ | .orVV _ _ | .andVV _ _ | .xorVV _ _ | .addVV _ _ | .subVV _ _ | .shr _ _ | .subnVV _ _ | .shl _ _
  | .rnd _ _ | .ldI _ | .addIV _ | .ldFV _ | .ldBV _ | .ldMemV _ | .ldVMem _ | .ldVDT _ | .ldDTV _ | .ldSTV _
  | .skp _ | .sknp _ | .ldVK _ => false

/-- The instruction the next cycle executes, if it gets as far as executing one. -/
def nextInstr (s : State) : Option Instr :=
  match fetch s with
  | .error _ => none
  | .ok w =>
    match decodeWord w with
    | .instr i => some i
    | .unknownOpcode _ => none
    | .truncated => none

/-- `read_beep()`: the level ST ≠ 0 (60_exceptions.md R222). -/
def readBeep (s : State) : Bool := s.st ≠ 0

/-- The result of a cycle that took s to t: the fault it latched, else its effects, `beeping` read after the instruction
(60_exceptions.md R205, R220). -/
def cycleResult (s t : State) : CycleResult :=
  match t.fault with
  | some f => .err f
  | none => .ok ⟨(nextInstr s).any redraws, readBeep t⟩

/-- `run_instruction_cycle()`: one step with its result (60_exceptions.md R207). A latched fault is returned and changes
nothing (R206). -/
def runInstructionCycle (s : State) : Host.Outcome (State × CycleResult) Fault Refusal :=
  match step s with
  | .next t => .next (t, cycleResult s t)
  | .fault f => .next (s, .err f)
  | .refused r => .refused r

/-! ## Reset and program load (70_reset_and_hazards.md R240, R243) -/

/-- `reset(font)` for a font of 80 bytes: every field at its reset value, the font at 0x000 (70_reset_and_hazards.md
R240). The entropy source is the host's, not the core's: its two fields stay (log 1). -/
def hostReset (font : List Byte) (s : State) : State :=
  { State.reset with
    mem := Memory.writeBytes [] Config.fontBase font
    entropyPending := s.entropyPending
    entropyCount := s.entropyCount }

/-- `load_program(bytes)` when the program fits: its bytes from 0x200 upward, and nothing else (70_reset_and_hazards.md
R243). -/
def loadBytes (bytes : List Byte) (s : State) : State :=
  { s with mem := s.mem.writeBytes Config.progBase bytes }

/-! ## Timers, display, keys, entropy (60_exceptions.md R221 to R226) -/

/-- One timer's tick: down by one unless it is 0 (60_exceptions.md R224). -/
def tickTimer (t : Byte) : Byte := if t ≠ 0 then t - 1 else t

/-- `tick_timers()` (60_exceptions.md R224). -/
def tickTimers (s : State) : State := { s with dt := tickTimer s.dt, st := tickTimer s.st }

/-- `read_display()`: a copy of the display (60_exceptions.md R221). -/
def readDisplay (s : State) : Display := s.disp

/-- `set_key(k, pressed)` for k in 0..15 (60_exceptions.md R223). -/
def setKey (k : RegNum) (pressed : Bool) (s : State) : State := { s with key := s.key.set k.val pressed k.isLt }

/-- The host plugs in the answers its entropy source will give next ("must be pluggable/seedable for deterministic
testing", 60_exceptions.md R226; log 1). -/
def plugEntropy (answers : List EntropyAnswer) (s : State) : State := { s with entropyPending := answers }

/-! ## Every transaction (60_exceptions.md R201) -/

/-- A call of the host. -/
inductive Transaction where
  | reset (font : List Byte)
  | loadProgram (bytes : List Byte)
  | runInstructionCycle
  | tickTimers
  | readDisplay
  | readBeep
  | setKey (k : Nat) (pressed : Bool)
  deriving DecidableEq, Repr

/-- What a transaction returns. -/
inductive Reply where
  /-- reset, tick_timers and set_key return nothing -/
  | done
  /-- load_program: `ok` -/
  | loaded
  /-- load_program: `err(ProgramTooLarge)` -/
  | loadError (f : Fault)
  /-- run_instruction_cycle -/
  | cycle (r : CycleResult)
  /-- read_display -/
  | display (d : Display)
  /-- read_beep -/
  | beep (b : Bool)
  deriving DecidableEq, Repr

/-- One transaction: the next state and its reply, or a refusal of an input the spec calls illegal. Only
`run_instruction_cycle` is affected by a latched fault (60_exceptions.md R206). -/
def transact (t : Transaction) (s : State) : Host.Outcome (State × Reply) Fault Refusal :=
  match t with
  | .reset font => if font.length = Config.fontSize then .next (hostReset font s, .done) else .refused .fontLength
  | .loadProgram bytes =>
    if bytes.length > Config.progMax then .next (s, .loadError .programTooLarge) else .next (loadBytes bytes s, .loaded)
  | .runInstructionCycle =>
    match runInstructionCycle s with
    | .next (s', r) => .next (s', .cycle r)
    | .fault f => .fault f
    | .refused r => .refused r
  | .tickTimers => .next (tickTimers s, .done)
  | .readDisplay => .next (s, .display (readDisplay s))
  | .readBeep => .next (s, .beep (readBeep s))
  | .setKey k pressed => if h : k < 16 then .next (setKey ⟨k, h⟩ pressed s, .done) else .refused .keyNumber

/-- A session: the host's calls one at a time, in the order it makes them (20_memory.md R61), with their replies. -/
def runSession : List Transaction → State → Host.Outcome (State × List Reply) Fault Refusal
  | [], s => .next (s, [])
  | t :: ts, s =>
    match transact t s with
    | .next (s', r) =>
      match runSession ts s' with
      | .next (s'', rs) => .next (s'', r :: rs)
      | .fault f => .fault f
      | .refused r => .refused r
    | .fault f => .fault f
    | .refused r => .refused r

/-! ## Fault codes (60_exceptions.md R202) -/

/-- The numeric code of a fault (60_exceptions.md R202; the codes are the spec's own, D16). -/
def Fault.code : Fault → Nat
  | .unknownOpcode _ => 1
  | .stackOverflow => 2
  | .stackUnderflow => 3
  | .outOfBounds _ => 4
  | .entropySourceFailure => 5
  | .programTooLarge => 6

end Sys2Proof.Machine
end

