-- ==== Sys2Proof/Safety.lean ====
section
/-! DEFINITION. The terms claims are made in: what an instruction leaves unchanged (its frame), what a latched fault can be,
and the invariant every step and every transaction keeps. -/

namespace Sys2Proof.Machine

/-- The parts of the state a frame may except, beside registers and memory. The program counter is never part of a frame,
and the keys are never excepted: no instruction writes them (10_state.md R30). -/
inductive Special where
  | index | stack | delayTimer | soundTimer | display | fault | entropy
  deriving DecidableEq, Repr

/-- Going from s to t leaves everything unchanged but the registers, memory addresses and special parts named. -/
structure FrameExcept (regs : List RegNum) (addrs : List Nat) (specials : List Special) (s t : State) : Prop where
  registers : ∀ r, r ∉ regs → t.readV r = s.readV r
  memory : ∀ a, a ∉ addrs → t.readByte a = s.readByte a
  index : .index ∉ specials → t.i = s.i
  stack : .stack ∉ specials → t.stack = s.stack ∧ t.sp = s.sp
  delayTimer : .delayTimer ∉ specials → t.dt = s.dt
  soundTimer : .soundTimer ∉ specials → t.st = s.st
  display : .display ∉ specials → t.disp = s.disp
  fault : .fault ∉ specials → t.fault = s.fault
  entropy : .entropy ∉ specials → t.entropyPending = s.entropyPending ∧ t.entropyCount = s.entropyCount
  keys : t.key = s.key

/-- What a latch can hold: a cycle fault whose info is what raises it (60_exceptions.md R202, 10_state.md R31). -/
def Fault.legitimate : Fault → Prop
  | .unknownOpcode w => decodeWord w = .unknownOpcode w
  | .stackOverflow | .stackUnderflow | .entropySourceFailure => True
  | .outOfBounds a => 0x0FFF ≤ a
  | .programTooLarge => False

/-- The invariant of the machine: memory keeps its canonical form and lists only addresses that exist (20_memory.md R50);
PC stays at most 0x10FE (30_encoding.md R72, 40_control.md R104); every live return address is at most 0x1000, one past
the last word (40_control.md R103, 20_memory.md R56); the latch holds only a cycle fault, with an info that raises it
(60_exceptions.md R202). -/
structure Inv (s : State) : Prop where
  memory : s.mem.wf
  pcBound : s.pc.toNat ≤ 0x10FE
  returnBound : ∀ j : Fin 16, j.val < s.sp.val → s.stack[j.val].toNat ≤ 0x1000
  latch : ∀ f, s.fault = some f → f.legitimate

/-- A machine that has not stopped: its latch is empty, so a cycle may execute an instruction (60_exceptions.md R206). -/
def Running (s : State) : Prop := s.fault = none

/-- Apply a change to the next state of an outcome, and leave a fault or a refusal as it is: the way a statement says that
an instruction neither reads nor writes a part of the state. -/
def onNext (change : State → State) :
    Host.Outcome State Fault Refusal → Host.Outcome State Fault Refusal
  | .next t => .next (change t)
  | .fault f => .fault f
  | .refused r => .refused r

/-- The byte at address a once n bytes have been stored from I upward, byte k of them being `stored k`: the stored byte inside
the block, the byte that was there outside it (20_memory.md R54, R61). -/
def byteAfterStore (s : State) (n : Nat) (stored : Nat → Byte) (a : Nat) : Byte :=
  if s.i.toNat ≤ a ∧ a < s.i.toNat + n then stored (a - s.i.toNat) else s.readByte a

/-- Whether `DRW Vx, Vy, n` toggles display pixel (px, py), in closed form: the pixel lies dx columns right of the sprite's
column and dy rows below its row, both modulo the display's size, within the sprite's 8 columns and n rows, and bit
7 - dx of the byte at I + dy is 1 (44_display.md R181, R182). -/
def spriteCovers (s : State) (x y : RegNum) (n : Nat) (px : Fin 64) (py : Fin 32) : Bool :=
  let dx := (px.val + 256 - (s.readV x).toNat) % 64
  let dy := (py.val + 256 - (s.readV y).toNat) % 32
  dx < 8 && dy < n && (s.readByte (effAddr s dy)).getLsbD (7 - dx)

end Sys2Proof.Machine
end

