-- ==== Sys2Proof/Certificates/Slice0/Obligations.lean ====
section
/-! DEFINITION. The statements for the provers. Each docstring names the rule of spec/ it formalises; where a clause rests on
a decision of the spec's own (92_eei_decisions.md) or on a log entry, it says so. -/

open Sys2Proof Sys2Proof.Machine

/-! ## Encoding -/

/-- One word of every family, written out from 30_encoding.md R76, and words R74 makes unknown, decode as the table says.
The patterns are the spec's own (decision D1, log 5). -/
def Obligations.DecodesWordsOfEveryFamily : Prop :=
  decodeWord 0x00EE = .instr .ret ∧ decodeWord 0x1ABC = .instr (.jp 0xABC) ∧ decodeWord 0x2300 = .instr (.call 0x300) ∧
  decodeWord 0xBF80 = .instr (.jpV0 0xF80) ∧ decodeWord 0x3342 = .instr (.seVB 3 0x42) ∧
  decodeWord 0x9120 = .instr (.sneVV 1 2) ∧ decodeWord 0x6A7B = .instr (.ldVB 10 0x7B) ∧
  decodeWord 0x8125 = .instr (.subVV 1 2) ∧ decodeWord 0x812E = .instr (.shl 1 2) ∧
  decodeWord 0xC30F = .instr (.rnd 3 0x0F) ∧ decodeWord 0xFA33 = .instr (.ldBV 10) ∧
  decodeWord 0xF165 = .instr (.ldVMem 1) ∧ decodeWord 0xF30A = .instr (.ldVK 3) ∧
  decodeWord 0xE19E = .instr (.skp 1) ∧ decodeWord 0x00E0 = .instr .cls ∧
  decodeWord 0xD12F = .instr (.drw 1 2 15) ∧
  decodeWord 0x0000 = .unknownOpcode 0x0000 ∧ decodeWord 0x5121 = .unknownOpcode 0x5121 ∧
  decodeWord 0x8128 = .unknownOpcode 0x8128 ∧ decodeWord 0xFF75 = .unknownOpcode 0xFF75

/-- The words the decoder rejects are exactly those of 30_encoding.md R74 (the strict low-nibble checks are decision D2;
the patterns D1, log 5). -/
def Obligations.UnknownWordsAreThoseOfTheTable : Prop :=
  ∀ w : Word, decodeWord w = .unknownOpcode w ↔
    ((w.extractLsb' 12 4).toNat = 0x0 ∧ w ≠ 0x00E0 ∧ w ≠ 0x00EE) ∨
    ((w.extractLsb' 12 4).toNat = 0x5 ∧ (w.extractLsb' 0 4).toNat ≠ 0) ∨
    ((w.extractLsb' 12 4).toNat = 0x8 ∧ (w.extractLsb' 0 4).toNat ∈ [0x8, 0x9, 0xA, 0xB, 0xC, 0xD, 0xF]) ∨
    ((w.extractLsb' 12 4).toNat = 0x9 ∧ (w.extractLsb' 0 4).toNat ≠ 0) ∨
    ((w.extractLsb' 12 4).toNat = 0xE ∧ (w.extractLsb' 0 8).toNat ∉ [0x9E, 0xA1]) ∨
    ((w.extractLsb' 12 4).toNat = 0xF ∧
      (w.extractLsb' 0 8).toNat ∉ [0x07, 0x0A, 0x15, 0x18, 0x1E, 0x29, 0x33, 0x55, 0x65])

/-- DECODE AND ENCODE AGREE: the two bytes of a well-formed instruction, at the head of any byte stream, decode to it and
leave the rest (30_encoding.md R70, R75, R76). -/
def Obligations.DecodeInvertsEncode : Prop :=
  ∀ (i : Instr) (rest : List Byte), i.wellFormed = true →
    decode (bytesOfWord (encode i) ++ rest) = (.instr i, rest)

/-- 30_encoding.md R75: `encode(decode(w)) = w` for every word w that decodes to an Operation, fields an instruction
ignores included; and what the decoder gives is well formed. -/
def Obligations.EncodeInvertsDecode : Prop :=
  ∀ (w : Word) (i : Instr), decodeWord w = .instr i → encode i = w ∧ i.wellFormed = true

/-- The rows of opcode_table.json are disjoint and cover exactly the known words, so they may be tested in any order
(30_encoding.md R77, derived by the spec from R73). -/
def Obligations.OpcodeRowsAreDisjointAndComplete : Prop :=
  ∀ w : Word,
    ((∃ i, decodeWord w = .instr i) ↔ ∃ row ∈ opcodeRows, matchesRow w row = true) ∧
    (∀ i, decodeWord w = .instr i → ∀ row ∈ opcodeRows, matchesRow w row = true → row = i.row)

/-- Assembling the spelling of a well-formed instruction gives it back; SHR and SHL with one register have y = 0
(30_encoding.md R90, from general knowledge; log 13). -/
def Obligations.AssemblerInvertsSpelling : Prop :=
  (∀ i : Instr, i.wellFormed = true → i.asm.assemble = some i) ∧
  (∀ x : RegNum, AsmLine.assemble ⟨.SHR, [.reg x]⟩ = some (.shr x 0) ∧ AsmLine.assemble ⟨.SHL, [.reg x]⟩ = some (.shl x 0))

/-! ## Fetch, the cycle and faults -/

/-- 20_memory.md R56: the fetch fails with OutOfBounds(PC) exactly when PC ≥ 0x0FFF; otherwise the word's high byte is the
byte at PC and its low byte the byte at PC + 1. -/
def Obligations.FetchIsTwoBytesOrOutOfBounds : Prop :=
  ∀ s : State,
    (0x0FFF ≤ s.pc.toNat → fetch s = .error (.outOfBounds s.pc.toNat)) ∧
    (s.pc.toNat < 0x0FFF → ∃ w, fetch s = .ok w ∧
      w.extractLsb' 8 8 = s.readByte s.pc.toNat ∧ w.extractLsb' 0 8 = s.readByte (s.pc.toNat + 1))

/-- A STEP RUNS THE DECODED INSTRUCTION: with an empty latch and the bytes at PC decoding to i, a step is exec of i at
that state; nothing is added around it (60_exceptions.md, the instruction cycle). -/
def Obligations.StepRunsDecodedInstruction : Prop :=
  ∀ (s : State) (i : Instr), s.fault = none → s.pc.toNat < 0x0FFF →
    decode [s.readByte s.pc.toNat, s.readByte (s.pc.toNat + 1)] = (.instr i, []) → step s = exec i s

/-- The fetch fault comes before the decode fault; each is latched and changes nothing else (60_exceptions.md, Faults and
the instruction cycle; atomicity is decision D14; that the raising cycle is a next state is log 2). -/
def Obligations.FetchAndDecodeFaultsAreLatched : Prop :=
  ∀ s : State, s.fault = none →
    (0x0FFF ≤ s.pc.toNat → step s = .next { s with fault := some (.outOfBounds s.pc.toNat) }) ∧
    (∀ w, fetch s = .ok w → decodeWord w = .unknownOpcode w →
      step s = .next { s with fault := some (.unknownOpcode w) })

/-- While a fault is latched a cycle changes nothing and returns that fault, and reset clears the latch (decision D15; that
the step answers Outcome.fault is log 2). -/
def Obligations.LatchedFaultStopsCyclesUntilReset : Prop :=
  ∀ (s : State) (f : Fault), s.fault = some f →
    step s = .fault f ∧ runInstructionCycle s = .next (s, .err f) ∧
    ∀ font : List Byte, font.length = 80 → ∃ t, transact (.reset font) s = .next (t, .done) ∧ t.fault = none

/-- What `run_instruction_cycle` returns, for every cycle that ends in a next state: err of the fault it latched; else ok, the
cycle has run an instruction, redraw is set exactly for CLS and DRW, and beeping is the level ST ≠ 0 after it. So a failed
fetch returns err(OutOfBounds(PC)) and a failed decode err(UnknownOpcode(w)), which the last two clauses say in full
(60_exceptions.md, the instruction cycle and host-visible outputs; decisions D14, D15, D23, D24). A latched fault is
LatchedFaultStopsCyclesUntilReset. -/
def Obligations.CycleReturnsItsEffects : Prop :=
  (∀ s t : State, step s = .next t →
    (∀ f, t.fault = some f → transact .runInstructionCycle s = .next (t, .cycle (.err f))) ∧
    (t.fault = none → ∃ i e, nextInstr s = some i ∧ transact .runInstructionCycle s = .next (t, .cycle (.ok e)) ∧
      (e.redraw = true ↔ i = .cls ∨ ∃ x y n, i = .drw x y n) ∧ (e.beeping = true ↔ t.st ≠ 0))) ∧
  (∀ s : State, s.fault = none → 0x0FFF ≤ s.pc.toNat → transact .runInstructionCycle s =
    .next ({ s with fault := some (.outOfBounds s.pc.toNat) }, .cycle (.err (.outOfBounds s.pc.toNat)))) ∧
  (∀ (s : State) (w : Word), s.fault = none → fetch s = .ok w → decodeWord w = .unknownOpcode w →
    transact .runInstructionCycle s =
      .next ({ s with fault := some (.unknownOpcode w) }, .cycle (.err (.unknownOpcode w))))

/-- Every cycle fault is atomic and precise: a step that latches a fault leaves all else as it was, PC at the faulting
instruction, and only an entropy failure has asked the host for a byte (decision D14; log 1). -/
def Obligations.CycleFaultsAreAtomic : Prop :=
  ∀ (s t : State) (f : Fault), step s = .next t → t.fault = some f →
    t.pc = s.pc ∧ t.mem = s.mem ∧ FrameExcept [] [] [.fault, .entropy] s t ∧
    (f ≠ .entropySourceFailure → t = { s with fault := some f })

/-- exec answers a next state for every instruction in every state, a raised fault included. That a raised fault (CALL at
depth 16, RET at depth 0, a bad address, a failed entropy source) is a NEXT state with the latch set, and not an
Outcome.fault, is the model's choice of an outcome for the raise of 60_exceptions.md R205 (log 2), and without it this is
false; that no mode or privilege turns an instruction away is decision D30. -/
def Obligations.EveryInstructionAnswersNext : Prop :=
  ∀ (i : Instr) (s : State), ∃ t, exec i s = .next t

/-- Placing an instruction's word where the next cycle fetches makes the next step run exactly it, from any state
(20_memory.md fetch, 30_encoding.md opcode map; withFetchWord is log 15). -/
def Obligations.PlacedWordIsTheNextToRun : Prop :=
  ∀ (i : Instr) (s : State), i.wellFormed = true →
    step (s.withFetchWord 16 (encode i).toNat) = exec i (s.withFetchWord 16 (encode i).toNat)

/-! ## Control transfer and skips -/

/-- 40_control.md R102, `JP nnn`: PC becomes nnn, nothing else changes, a target of 0xFFF faults at the next fetch, and a
jump to its own address changes nothing at all. -/
def Obligations.JumpSetsPc : Prop :=
  ∀ (nnn : Addr12) (s : State), ∃ t, exec (.jp nnn) s = .next t ∧ t.pc.toNat = nnn.toNat ∧
    FrameExcept [] [] [] s t ∧ (nnn = 0xFFF → fetch t = .error (.outOfBounds 0xFFF)) ∧
    (s.pc.toNat = nnn.toNat → t = s)

/-- `JP V0, nnn`: PC becomes the exact sum nnn + V0, unmasked (40_control.md; decisions D8, D11). -/
def Obligations.IndexedJumpAddsV0 : Prop :=
  ∀ (nnn : Addr12) (s : State), ∃ t, exec (.jpV0 nnn) s = .next t ∧
    t.pc.toNat = nnn.toNat + (s.readV 0).toNat ∧ FrameExcept [] [] [] s t

/-- `CALL nnn`: below 16 entries it pushes PC + 2 and jumps; with 16 it latches StackOverflow and writes nothing
(40_control.md; decisions D13, D14, D15; that the raising cycle is a next state is log 2). -/
def Obligations.CallPushesReturnAddress : Prop :=
  ∀ (nnn : Addr12) (s : State),
    (s.sp.val < 16 → ∃ t, exec (.call nnn) s = .next t ∧ t.pc.toNat = nnn.toNat ∧ t.sp.val = s.sp.val + 1 ∧
      (∀ j : Fin 16, t.stack[j.val] = if j.val = s.sp.val then s.pc + 2 else s.stack[j.val]) ∧
      FrameExcept [] [] [.stack] s t) ∧
    (s.sp.val = 16 → ∃ t, exec (.call nnn) s = .next t ∧ t.fault = some .stackOverflow ∧ t.pc = s.pc ∧
      FrameExcept [] [] [.fault] s t)

/-- `RET`: above depth 0 it pops the top entry into PC and the entry keeps its value; at depth 0 it latches StackUnderflow and
writes nothing else (40_control.md, jumps, call, return). The depth-0 clause rests on choices: every fault is atomic
(decision D14), it is latched (D15), and the raising cycle is a next state (log 2). -/
def Obligations.ReturnPopsIntoPc : Prop :=
  ∀ s : State,
    (0 < s.sp.val → ∃ t, exec .ret s = .next t ∧ t.sp.val = s.sp.val - 1 ∧
      (∀ j : Fin 16, j.val = s.sp.val - 1 → t.pc = s.stack[j.val]) ∧ t.stack = s.stack ∧
      FrameExcept [] [] [.stack] s t) ∧
    (s.sp.val = 0 → ∃ t, exec .ret s = .next t ∧ t.fault = some .stackUnderflow ∧ t.pc = s.pc ∧
      FrameExcept [] [] [.fault] s t)

/-- A RET right after a CALL comes back to the instruction after the CALL, with the depth and every live entry as before
(40_control.md; decision D13). -/
def Obligations.ReturnUndoesCall : Prop :=
  ∀ (nnn : Addr12) (s : State), s.sp.val < 16 →
    ∃ t u, exec (.call nnn) s = .next t ∧ exec .ret t = .next u ∧ u.pc = s.pc + 2 ∧ u.sp = s.sp ∧
      (∀ j : Fin 16, j.val < s.sp.val → u.stack[j.val] = s.stack[j.val]) ∧ FrameExcept [] [] [.stack] s u

/-- 40_control.md R105 to R108, the four register skips: PC + 4 when the condition holds, PC + 2 otherwise, modulo 2^16, and
nothing else changes; from PC = 0xFFE either way the next fetch faults. -/
def Obligations.RegisterSkipsMoveOnlyPc : Prop :=
  ∀ (x y : RegNum) (kk : Byte) (s : State),
    (∃ t, exec (.seVB x kk) s = .next t ∧ t.pc = s.pc + (if s.readV x = kk then 4 else 2) ∧ FrameExcept [] [] [] s t ∧
      (s.pc = 0xFFE → fetch t = .error (.outOfBounds (if s.readV x = kk then 0x1002 else 0x1000)))) ∧
    (∃ t, exec (.sneVB x kk) s = .next t ∧ t.pc = s.pc + (if s.readV x = kk then 2 else 4) ∧ FrameExcept [] [] [] s t ∧
      (s.pc = 0xFFE → fetch t = .error (.outOfBounds (if s.readV x = kk then 0x1000 else 0x1002)))) ∧
    (∃ t, exec (.seVV x y) s = .next t ∧ t.pc = s.pc + (if s.readV x = s.readV y then 4 else 2) ∧
      FrameExcept [] [] [] s t) ∧
    (∃ t, exec (.sneVV x y) s = .next t ∧ t.pc = s.pc + (if s.readV x = s.readV y then 2 else 4) ∧
      FrameExcept [] [] [] s t)

/-- `SKP Vx` and `SKNP Vx`: the key is the low nibble of Vx (43_timers_keys.md; decision D20); only PC changes. -/
def Obligations.KeySkipsTestTheNamedKey : Prop :=
  ∀ (x k : RegNum) (s : State), k.val = (s.readV x).toNat % 16 →
    (∃ t, exec (.skp x) s = .next t ∧ t.pc = s.pc + (if s.key[k.val] = true then 4 else 2) ∧ FrameExcept [] [] [] s t) ∧
    (∃ t, exec (.sknp x) s = .next t ∧ t.pc = s.pc + (if s.key[k.val] = true then 2 else 4) ∧ FrameExcept [] [] [] s t)

/-! ## Loads, arithmetic, bitwise, shifts, random -/

/-- 41_alu.md R121 and R123: `LD Vx, kk` and `LD Vx, Vy` write Vx, advance PC by 2, and change nothing else. -/
def Obligations.RegisterLoadsWriteVx : Prop :=
  ∀ (x y : RegNum) (kk : Byte) (s : State),
    (∃ t, exec (.ldVB x kk) s = .next t ∧ t.readV x = kk ∧ t.pc = s.pc + 2 ∧ FrameExcept [x] [] [] s t) ∧
    (∃ t, exec (.ldVV x y) s = .next t ∧ t.readV x = s.readV y ∧ t.pc = s.pc + 2 ∧ FrameExcept [x] [] [] s t)

/-- `ADD Vx, kk`: the sum modulo 256, and no carry: VF changes only as the destination (41_alu.md; decision D36). -/
def Obligations.AddImmediateWritesNoCarry : Prop :=
  ∀ (x : RegNum) (kk : Byte) (s : State), ∃ t, exec (.addVB x kk) s = .next t ∧
    (t.readV x).toNat = ((s.readV x).toNat + kk.toNat) % 256 ∧ t.pc = s.pc + 2 ∧ FrameExcept [x] [] [] s t

/-- OR, AND and XOR write Vx bit by bit and leave VF alone unless x = F (41_alu.md; decision D6). -/
def Obligations.BitwiseOperationsLeaveVF : Prop :=
  ∀ (x y : RegNum) (s : State),
    (∃ t, exec (.orVV x y) s = .next t ∧ (∀ b, (t.readV x).getLsbD b = ((s.readV x).getLsbD b || (s.readV y).getLsbD b)) ∧
      t.pc = s.pc + 2 ∧ FrameExcept [x] [] [] s t) ∧
    (∃ t, exec (.andVV x y) s = .next t ∧ (∀ b, (t.readV x).getLsbD b = ((s.readV x).getLsbD b && (s.readV y).getLsbD b)) ∧
      t.pc = s.pc + 2 ∧ FrameExcept [x] [] [] s t) ∧
    (∃ t, exec (.xorVV x y) s = .next t ∧ (∀ b, (t.readV x).getLsbD b = ((s.readV x).getLsbD b ^^ (s.readV y).getLsbD b)) ∧
      t.pc = s.pc + 2 ∧ FrameExcept [x] [] [] s t)

/-- `ADD Vx, Vy`: Vx becomes the sum modulo 256 and VF the carry; with x = F the carry is what VF holds (41_alu.md;
decision D4). -/
def Obligations.AddSetsCarry : Prop :=
  ∀ (x y : RegNum) (s : State), ∃ t, exec (.addVV x y) s = .next t ∧
    (x ≠ 15 → (t.readV x).toNat = ((s.readV x).toNat + (s.readV y).toNat) % 256) ∧
    t.readV 15 = (if (s.readV x).toNat + (s.readV y).toNat > 255 then 1 else 0) ∧
    t.pc = s.pc + 2 ∧ FrameExcept [x, 15] [] [] s t

/-- `SUB Vx, Vy` and `SUBN Vx, Vy`: the difference modulo 256, VF = 1 when there is no borrow, equality included; with
x = F the flag is what VF holds (41_alu.md; decisions D4, D5). -/
def Obligations.SubtractionsSetNotBorrow : Prop :=
  ∀ (x y : RegNum) (s : State),
    (∃ t, exec (.subVV x y) s = .next t ∧
      (x ≠ 15 → (t.readV x).toNat = ((s.readV x).toNat + 256 - (s.readV y).toNat) % 256) ∧
      t.readV 15 = (if (s.readV y).toNat ≤ (s.readV x).toNat then 1 else 0) ∧
      t.pc = s.pc + 2 ∧ FrameExcept [x, 15] [] [] s t) ∧
    (∃ t, exec (.subnVV x y) s = .next t ∧
      (x ≠ 15 → (t.readV x).toNat = ((s.readV y).toNat + 256 - (s.readV x).toNat) % 256) ∧
      t.readV 15 = (if (s.readV x).toNat ≤ (s.readV y).toNat then 1 else 0) ∧
      t.pc = s.pc + 2 ∧ FrameExcept [x, 15] [] [] s t)

/-- `SHR Vx` and `SHL Vx`: Vx in place, y ignored, VF the bit shifted out; with x = F the bit is what VF holds (41_alu.md;
decisions D3, D4). -/
def Obligations.ShiftsSetTheBitShiftedOut : Prop :=
  ∀ (x y : RegNum) (s : State),
    (∃ t, exec (.shr x y) s = .next t ∧ (x ≠ 15 → (t.readV x).toNat = (s.readV x).toNat / 2) ∧
      (t.readV 15).toNat = (s.readV x).toNat % 2 ∧ t.pc = s.pc + 2 ∧ FrameExcept [x, 15] [] [] s t) ∧
    (∃ t, exec (.shl x y) s = .next t ∧ (x ≠ 15 → (t.readV x).toNat = (s.readV x).toNat * 2 % 256) ∧
      (t.readV 15).toNat = (s.readV x).toNat / 128 ∧ t.pc = s.pc + 2 ∧ FrameExcept [x, 15] [] [] s t)

/-- `RND Vx, kk`: whatever the host answers (a free value or a plugged one, log 1), a byte is masked by kk into Vx, a failure
latches EntropySourceFailure and writes nothing else of the core; exactly one request either way (41_alu.md; decisions
D14, D15, D25; that the raising cycle is a next state is log 2). -/
def Obligations.RandomByteIsMasked : Prop :=
  ∀ (x : RegNum) (kk : Byte) (s : State),
    (∀ b, s.nextEntropy = .ok b → ∃ t, exec (.rnd x kk) s = .next t ∧ t.readV x = b &&& kk ∧ t.pc = s.pc + 2 ∧
      t.entropyCount = s.entropyCount + 1 ∧ t.entropyPending = s.entropyPending.tail ∧
      FrameExcept [x] [] [.entropy] s t) ∧
    (s.nextEntropy = .fail → ∃ t, exec (.rnd x kk) s = .next t ∧ t.fault = some .entropySourceFailure ∧ t.pc = s.pc ∧
      t.entropyCount = s.entropyCount + 1 ∧ t.entropyPending = s.entropyPending.tail ∧
      FrameExcept [] [] [.fault, .entropy] s t)

/-- The host is asked for a byte exactly once by each executed RND and by no other cycle (60_exceptions.md, entropy source;
the counter is the model's own, log 1). -/
def Obligations.OnlyRndAsksForEntropy : Prop :=
  ∀ s t : State, step s = .next t →
    (∃ x kk, nextInstr s = some (.rnd x kk) ∧ t.entropyCount = s.entropyCount + 1) ∨
    ((∀ x kk, nextInstr s ≠ some (.rnd x kk)) ∧ t.entropyCount = s.entropyCount ∧ t.entropyPending = s.entropyPending)

/-! ## Index register and memory -/

/-- 42_memory_index.md R141, `LD I, nnn`: I becomes nnn, PC advances by 2, nothing else changes. -/
def Obligations.LoadIndexSetsI : Prop :=
  ∀ (nnn : Addr12) (s : State), ∃ t, exec (.ldI nnn) s = .next t ∧ t.i.toNat = nnn.toNat ∧ t.pc = s.pc + 2 ∧
    FrameExcept [] [] [.index] s t

/-- `ADD I, Vx` adds modulo 2^16 and writes no flag; `LD F, Vx` points I at glyph Vx mod 16 of the font at 0x000
(42_memory_index.md; decisions D9, D17). -/
def Obligations.IndexArithmeticWritesNoFlag : Prop :=
  ∀ (x : RegNum) (s : State),
    (∃ t, exec (.addIV x) s = .next t ∧ t.i.toNat = (s.i.toNat + (s.readV x).toNat) % 65536 ∧ t.pc = s.pc + 2 ∧
      FrameExcept [] [] [.index] s t) ∧
    (∃ t, exec (.ldFV x) s = .next t ∧ t.i.toNat = 5 * ((s.readV x).toNat % 16) ∧ t.pc = s.pc + 2 ∧
      FrameExcept [] [] [.index] s t)

/-- `LD B, Vx`: with I, I + 1 and I + 2 in memory, the three decimal digits of Vx, hundreds first, stand there and every
other byte is as before (42_memory_index.md; digit order from general knowledge G5). -/
def Obligations.DecimalDigitsAreStored : Prop :=
  ∀ (x : RegNum) (s : State), s.i.toNat + 3 ≤ 0x1000 → ∃ t, exec (.ldBV x) s = .next t ∧
    (t.readByte (effAddr s 0)).toNat = (s.readV x).toNat / 100 ∧
    (t.readByte (effAddr s 1)).toNat = (s.readV x).toNat / 10 % 10 ∧
    (t.readByte (effAddr s 2)).toNat = (s.readV x).toNat % 10 ∧
    t.pc = s.pc + 2 ∧ FrameExcept [] ((List.range 3).map (effAddr s)) [] s t

/-- `LD [I], Vx`: with the block in memory, V0 to Vx stand at I upward, every other byte is as before, and I is unchanged
(42_memory_index.md; decision D7). -/
def Obligations.RegisterBlockIsStored : Prop :=
  ∀ (x : RegNum) (s : State), s.i.toNat + x.val + 1 ≤ 0x1000 → ∃ t, exec (.ldMemV x) s = .next t ∧
    (∀ k : RegNum, k ≤ x → t.readByte (effAddr s k.val) = s.readV k) ∧
    t.pc = s.pc + 2 ∧ FrameExcept [] ((List.range (x.val + 1)).map (effAddr s)) [] s t

/-- `LD Vx, [I]`: with the block in memory, V0 to Vx take the bytes at I upward, the other registers and all of memory are as
before, and I is unchanged (42_memory_index.md; decision D7). -/
def Obligations.RegisterBlockIsLoaded : Prop :=
  ∀ (x : RegNum) (s : State), s.i.toNat + x.val + 1 ≤ 0x1000 → ∃ t, exec (.ldVMem x) s = .next t ∧
    (∀ k : RegNum, k ≤ x → t.readV k = s.readByte (effAddr s k.val)) ∧
    t.pc = s.pc + 2 ∧ FrameExcept ((List.finRange 16).filter (· ≤ x)) [] [] s t

/-- Every access through I that leaves memory latches OutOfBounds with the first bad address, the larger of I and 0x1000, and
writes nothing: LD B (3 bytes), LD [I] and LD Vx,[I] (x + 1 bytes), DRW (n bytes) (20_memory.md; decisions D10, D14, D15;
that the raising cycle is a next state is log 2). -/
def Obligations.IndexedAccessesFaultOutsideMemory : Prop :=
  ∀ (i : Instr) (len : Nat) (s : State),
    ((∃ x, i = .ldBV x ∧ len = 3) ∨ (∃ x, i = .ldMemV x ∧ len = x.val + 1) ∨ (∃ x, i = .ldVMem x ∧ len = x.val + 1) ∨
      (∃ x y, i = .drw x y len ∧ 0 < len)) →
    0x1000 < s.i.toNat + len →
    exec i s = .next { s with fault := some (.outOfBounds (max s.i.toNat 0x1000)) }

/-- A register block stored and loaded again from the same I comes back, whatever the registers held in between
(42_memory_index.md; decision D7). -/
def Obligations.StoredBlockLoadsBack : Prop :=
  ∀ (x : RegNum) (s : State), s.i.toNat + x.val + 1 ≤ 0x1000 →
    ∃ t, exec (.ldMemV x) s = .next t ∧ ∀ u : State, u.mem = t.mem → u.i = s.i →
      ∃ w, exec (.ldVMem x) u = .next w ∧ ∀ k : RegNum, k ≤ x → w.readV k = s.readV k

/-- A store by LD [I], Vx or by LD B, Vx is what the very next fetch reads, wherever the stored block lies: the fetched word is
made of the two bytes after the storing instruction, each one the stored byte if the store covers it, else the byte that was
there (20_memory.md, ordering; derived by the spec from its single-agent rule; digit order from general knowledge G5). The
premise on PC says that both bytes exist. -/
def Obligations.NextFetchSeesTheStore : Prop :=
  ∀ (x : RegNum) (s : State), s.pc.toNat + 4 ≤ 0x1000 →
    (s.i.toNat + x.val + 1 ≤ 0x1000 → ∃ t, exec (.ldMemV x) s = .next t ∧
      let seen := byteAfterStore s (x.val + 1) (fun k => s.readV (Fin.ofNat 16 k))
      fetch t = .ok (wordOfBytes (seen (s.pc.toNat + 2)) (seen (s.pc.toNat + 3)))) ∧
    (s.i.toNat + 3 ≤ 0x1000 → ∃ t, exec (.ldBV x) s = .next t ∧
      let seen := byteAfterStore s 3 (fun k => BitVec.ofNat 8 ((s.readV x).toNat / 10 ^ (2 - k) % 10))
      fetch t = .ok (wordOfBytes (seen (s.pc.toNat + 2)) (seen (s.pc.toNat + 3))))

/-! ## Timers and keys -/

/-- 43_timers_keys.md R160 and R161: `LD Vx, DT` copies DT into Vx, `LD DT, Vx` copies Vx into DT; PC advances by 2 and
nothing else changes. -/
def Obligations.DelayTimerIsReadAndSet : Prop :=
  ∀ (x : RegNum) (s : State),
    (∃ t, exec (.ldVDT x) s = .next t ∧ t.readV x = s.dt ∧ t.pc = s.pc + 2 ∧ FrameExcept [x] [] [] s t) ∧
    (∃ t, exec (.ldDTV x) s = .next t ∧ t.dt = s.readV x ∧ t.pc = s.pc + 2 ∧ FrameExcept [] [] [.delayTimer] s t)

/-- `LD ST, Vx` copies Vx into ST, and the beep level after it is Vx ≠ 0 (43_timers_keys.md; decision D24). -/
def Obligations.SoundTimerIsSet : Prop :=
  ∀ (x : RegNum) (s : State), ∃ t, exec (.ldSTV x) s = .next t ∧ t.st = s.readV x ∧
    (readBeep t = true ↔ s.readV x ≠ 0) ∧ t.pc = s.pc + 2 ∧ FrameExcept [] [] [.soundTimer] s t

/-- 60_exceptions.md R224: `tick_timers` takes each timer down by one unless it is 0, and changes nothing else, latched fault
or not. -/
def Obligations.TickDecrementsBothTimers : Prop :=
  ∀ s : State, ∃ t, transact .tickTimers s = .next (t, .done) ∧
    t.dt.toNat = s.dt.toNat - 1 ∧ t.st.toNat = s.st.toNat - 1 ∧ t.pc = s.pc ∧
    FrameExcept [] [] [.delayTimer, .soundTimer] s t

/-- n ticks take each timer down by n and never below 0 (60_exceptions.md, timers: 60 ticks from 30 leave 0). -/
def Obligations.TicksNeverGoBelowZero : Prop :=
  ∀ (n : Nat) (s : State),
    (tickTimers^[n] s).dt.toNat = s.dt.toNat - n ∧ (tickTimers^[n] s).st.toNat = s.st.toNat - n

/-- A cycle never moves a timer or a key: DT changes only in a cycle that runs `LD DT, Vx`, ST only in one that runs
`LD ST, Vx`, and the keys in none (10_state.md, timers and key state). -/
def Obligations.CyclesNeverTickNorTouchKeys : Prop :=
  ∀ s t : State, step s = .next t →
    (t.dt = s.dt ∨ ∃ x, nextInstr s = some (.ldDTV x)) ∧ (t.st = s.st ∨ ∃ x, nextInstr s = some (.ldSTV x)) ∧
    t.key = s.key

/-- `LD Vx, K`: with every key up nothing changes, PC included; with k the lowest key down, Vx becomes k and PC advances in
this very cycle (43_timers_keys.md; decisions D21, D35). -/
def Obligations.KeyWaitTakesTheLowestKey : Prop :=
  ∀ (x : RegNum) (s : State),
    ((∀ k : RegNum, s.key[k.val] = false) → exec (.ldVK x) s = .next s) ∧
    (∀ k : RegNum, s.key[k.val] = true → (∀ j : RegNum, j < k → s.key[j.val] = false) →
      ∃ t, exec (.ldVK x) s = .next t ∧ (t.readV x).toNat = k.val ∧ t.pc = s.pc + 2 ∧ FrameExcept [x] [] [] s t)

/-! ## Display -/

/-- `CLS`: every pixel clear, PC advances by 2, VF and all else unchanged (44_display.md, clear). -/
def Obligations.ClearScreenClearsEveryPixel : Prop :=
  ∀ s : State, ∃ t, exec .cls s = .next t ∧ (∀ px py, t.disp.pixel px py = false) ∧ t.pc = s.pc + 2 ∧
    FrameExcept [] [] [.display] s t

/-- `DRW Vx, Vy, n` in closed form: each pixel is XORed with whether the wrapped sprite covers it, and VF is 1 exactly when a
covered pixel was set, else 0; all sources are read before any write (44_display.md; decisions D22, D31; bit order from
general knowledge G4). -/
def Obligations.SpriteDrawIsXorWithWraparound : Prop :=
  ∀ (x y : RegNum) (n : Nat) (s : State), n < 16 → (s.i.toNat + n ≤ 0x1000 ∨ n = 0) →
    ∃ t, exec (.drw x y n) s = .next t ∧
      (∀ px py, t.disp.pixel px py = (s.disp.pixel px py ^^ spriteCovers s x y n px py)) ∧
      t.readV 15 = flagByte (decide (∃ px py, spriteCovers s x y n px py = true ∧ s.disp.pixel px py = true)) ∧
      t.pc = s.pc + 2 ∧ FrameExcept [15] [] [.display] s t

/-- Drawing the same sprite twice at the same place restores every pixel, where neither coordinate register is VF
(44_display.md, DRW's example; decision D31). -/
def Obligations.SecondDrawErasesTheFirst : Prop :=
  ∀ (x y : RegNum) (n : Nat) (s : State), n < 16 → x ≠ 15 → y ≠ 15 → (s.i.toNat + n ≤ 0x1000 ∨ n = 0) →
    ∃ t u, exec (.drw x y n) s = .next t ∧ exec (.drw x y n) t = .next u ∧
      ∀ px py, u.disp.pixel px py = s.disp.pixel px py

/-! ## Whole-machine rules -/

/-- The only instructions that write VF as a side effect are ADD Vx,Vy, SUB, SHR, SUBN, SHL and DRW: in a cycle that runs any
other instruction VF changes only if that instruction names it as its destination, or loads the block V0 to VF
(10_state.md, general registers; decisions D6, D9, D36). -/
def Obligations.OnlyFlagWritersChangeVF : Prop :=
  ∀ s t : State, step s = .next t → t.readV 15 ≠ s.readV 15 → ∃ i, nextInstr s = some i ∧
    ((∃ x y, i = .addVV x y ∨ i = .subVV x y ∨ i = .shr x y ∨ i = .subnVV x y ∨ i = .shl x y) ∨
     (∃ x y n, i = .drw x y n) ∨
     (∃ y, i = .ldVV 15 y ∨ i = .orVV 15 y ∨ i = .andVV 15 y ∨ i = .xorVV 15 y) ∨
     (∃ kk, i = .ldVB 15 kk ∨ i = .addVB 15 kk ∨ i = .rnd 15 kk) ∨
     i = .ldVMem 15 ∨ i = .ldVDT 15 ∨ i = .ldVK 15)

/-- No instruction but CALL and RET reads or writes the stack or its depth: replacing both beforehand only replaces them
afterwards (10_state.md, special registers). -/
def Obligations.StackIsPrivateToCallAndReturn : Prop :=
  ∀ (i : Instr) (s : State) (stack : Vector Word 16) (sp : Fin 17), i ≠ .ret → (∀ nnn, i ≠ .call nnn) →
    exec i { s with stack := stack, sp := sp } = onNext (fun t => { t with stack := stack, sp := sp }) (exec i s)

/-- No instruction but SKP, SKNP and LD Vx,K depends on the keys, and none but CLS and DRW reads or writes the display
(10_state.md, display and input state). -/
def Obligations.KeysAndDisplayArePrivate : Prop :=
  (∀ (i : Instr) (s : State) (key : Vector Bool 16), (∀ x, i ≠ .skp x ∧ i ≠ .sknp x ∧ i ≠ .ldVK x) →
    exec i { s with key := key } = onNext (fun t => { t with key := key }) (exec i s)) ∧
  (∀ (i : Instr) (s : State) (disp : Display), i ≠ .cls → (∀ x y n, i ≠ .drw x y n) →
    exec i { s with disp := disp } = onNext (fun t => { t with disp := disp }) (exec i s))

/-- Memory changes only in a cycle that runs LD B or LD [I], and I only in one that runs LD I, ADD I or LD F: no access
changes I (10_state.md and 42_memory_index.md, the writers of I; decision D7). -/
def Obligations.WritersOfMemoryAndIndex : Prop :=
  ∀ s t : State, step s = .next t →
    ((∀ a, t.readByte a = s.readByte a) ∨ ∃ x, nextInstr s = some (.ldBV x) ∨ nextInstr s = some (.ldMemV x)) ∧
    (t.i = s.i ∨ (∃ nnn, nextInstr s = some (.ldI nnn)) ∨
      ∃ x, nextInstr s = some (.addIV x) ∨ nextInstr s = some (.ldFV x))

/-- PC becomes odd only by JP or CALL to an odd address, JP V0 with an odd sum, or RET to an odd return address
(20_memory.md, alignment; derived by the spec). -/
def Obligations.OnlyTransfersMakePcOdd : Prop :=
  ∀ (i : Instr) (s t : State), s.pc.toNat % 2 = 0 → exec i s = .next t → t.pc.toNat % 2 = 1 →
    (∃ nnn, (i = .jp nnn ∨ i = .call nnn) ∧ nnn.toNat % 2 = 1) ∨
    (∃ nnn, i = .jpV0 nnn ∧ (nnn.toNat + (s.readV 0).toNat) % 2 = 1) ∨
    (i = .ret ∧ ∃ j : Fin 16, j.val + 1 = s.sp.val ∧ s.stack[j.val].toNat % 2 = 1)

/-! ## The invariant -/

/-- The reset state meets the invariant. -/
def Obligations.ResetMeetsInvariant : Prop := Inv State.reset

/-- Every step keeps the invariant: memory canonical, PC at most 0x10FE, live return addresses at most 0x1000, the latch
empty or holding a cycle fault whose info raises it. -/
def Obligations.StepKeepsInvariant : Prop := ∀ s t : State, Inv s → step s = .next t → Inv t

/-- Every transaction of the host keeps the invariant (60_exceptions.md, the transaction interface). -/
def Obligations.TransactionsKeepInvariant : Prop :=
  ∀ (a : Transaction) (s t : State) (r : Reply), Inv s → transact a s = .next (t, r) → Inv t

/-! ## Reset, program load and the host -/

/-- `reset(font)` with 80 bytes puts the font at 0x000, zeros above it, and every register, the stack, timers, display, keys
and latch at their reset values, PC at 0x200; another length has no step (70_reset_and_hazards.md; decisions D15, D18,
D19, D33). With the canonical font it is State.reset. -/
def Obligations.ResetSetsEveryField : Prop :=
  ∀ (font : List Byte) (s : State),
    (font.length = 80 → ∃ t, transact (.reset font) s = .next (t, .done) ∧
      (∀ a, a < 80 → t.readByte a = font.getD a 0) ∧ (∀ a, 80 ≤ a → t.readByte a = 0) ∧
      (∀ r, t.readV r = 0) ∧ t.i = 0 ∧ t.pc = 0x200 ∧ t.sp = 0 ∧ (∀ j : Fin 16, t.stack[j.val] = 0) ∧
      t.dt = 0 ∧ t.st = 0 ∧ (∀ px py, t.disp.pixel px py = false) ∧ (∀ k : RegNum, t.key[k.val] = false) ∧
      t.fault = none) ∧
    (font.length ≠ 80 → transact (.reset font) s = .refused .fontLength) ∧
    hostReset canonicalFont s =
      { State.reset with entropyPending := s.entropyPending, entropyCount := s.entropyCount }

/-- `load_program`: at most 3584 bytes are copied to 0x200 upward and nothing else changes; one byte more returns
ProgramTooLarge and writes nothing (70_reset_and_hazards.md; decision D26). -/
def Obligations.ProgramLoadCopiesOrRefuses : Prop :=
  ∀ (bytes : List Byte) (s : State),
    (bytes.length ≤ 3584 → ∃ t, transact (.loadProgram bytes) s = .next (t, .loaded) ∧
      (∀ j, j < bytes.length → t.readByte (0x200 + j) = bytes.getD j 0) ∧
      t = { s with mem := t.mem } ∧ FrameExcept [] ((List.range bytes.length).map (0x200 + ·)) [] s t) ∧
    (3584 < bytes.length → transact (.loadProgram bytes) s = .next (s, .loadError .programTooLarge))

/-- After reset with any 80-byte font and a program load, the first cycle runs the program's first instruction; with no
program, it latches UnknownOpcode(0x0000) (70_reset_and_hazards.md, boot; zeros are decision D19, the latch D15, the next
state with the latch is log 2). -/
def Obligations.BootRunsTheFirstInstruction : Prop :=
  ∀ (font : List Byte) (s : State), font.length = 80 → ∃ t, transact (.reset font) s = .next (t, .done) ∧
    (∀ (hi lo : Byte) (rest : List Byte) (i : Instr), rest.length ≤ 3582 →
      decodeWord (wordOfBytes hi lo) = .instr i →
      ∃ u, transact (.loadProgram (hi :: lo :: rest)) t = .next (u, .loaded) ∧ u.pc = 0x200 ∧ step u = exec i u) ∧
    step t = .next { t with fault := some (.unknownOpcode 0x0000) }

/-- The host's other calls: `set_key` for k in 0..15 sets that key and nothing else, a larger k has no meaning; the readouts
return the display and the beep level and change nothing (60_exceptions.md, host-visible outputs and inputs; decisions
D20, D24). -/
def Obligations.KeySetterAndReadouts : Prop :=
  ∀ (k : Nat) (pressed : Bool) (s : State),
    (k < 16 → ∃ t, transact (.setKey k pressed) s = .next (t, .done) ∧
      (∀ j : RegNum, t.key[j.val] = if j.val = k then pressed else s.key[j.val]) ∧ t = { s with key := t.key }) ∧
    (16 ≤ k → transact (.setKey k pressed) s = .refused .keyNumber) ∧
    transact .readDisplay s = .next (s, .display s.disp) ∧
    (∃ b, transact .readBeep s = .next (s, .beep b) ∧ (b = true ↔ s.st ≠ 0))
end

