-- ==== Sys2Proof/Laws/Decode.lean ====
section
/-! SUPPORT. The fields of a word as numbers, and the fields of each format's word: what the decoder and the encoder say
of one another goes through these. -/

namespace Sys2Proof

/-! ## The fields of any word -/

theorem fieldOp_eq (w : Word) : fieldOp w = w.toNat / 4096 := by
  have := w.isLt
  simp only [fieldOp, BitVec.extractLsb'_toNat, Nat.shiftRight_eq_div_pow]
  omega

theorem fieldX_val (w : Word) : (fieldX w).val = w.toNat / 256 % 16 := by
  simp only [fieldX, BitVec.extractLsb'_toNat, Nat.shiftRight_eq_div_pow]

theorem fieldY_val (w : Word) : (fieldY w).val = w.toNat / 16 % 16 := by
  simp only [fieldY, BitVec.extractLsb'_toNat, Nat.shiftRight_eq_div_pow]

theorem fieldN_eq (w : Word) : fieldN w = w.toNat % 16 := by
  simp [fieldN]

theorem fieldKK_toNat (w : Word) : (fieldKK w).toNat = w.toNat % 256 := by
  simp [fieldKK]

theorem fieldNNN_toNat (w : Word) : (fieldNNN w).toNat = w.toNat % 4096 := by
  simp [fieldNNN]

/-! ## The words of the formats -/

theorem formatN_toNat {op : Nat} (h : op < 16) (nnn : Addr12) : (formatN op nnn).toNat = op * 4096 + nnn.toNat := by
  have := nnn.isLt
  rw [formatN, BitVec.toNat_ofNat]
  omega

theorem formatXK_toNat {op kk : Nat} (h : op < 16) (hk : kk < 256) (x : RegNum) :
    (formatXK op x kk).toNat = op * 4096 + x.val * 256 + kk := by
  rw [formatXK, BitVec.toNat_ofNat]
  omega

theorem formatXYN_toNat {op n : Nat} (h : op < 16) (hn : n < 16) (x y : RegNum) :
    (formatXYN op x y n).toNat = op * 4096 + x.val * 256 + y.val * 16 + n := by
  rw [formatXYN, BitVec.toNat_ofNat]
  omega

/-! ## The fields of the formats' words -/

theorem fieldOp_formatN {op : Nat} (h : op < 16) (nnn : Addr12) : fieldOp (formatN op nnn) = op := by
  have := nnn.isLt
  rw [fieldOp_eq, formatN_toNat h]; omega

theorem fieldNNN_formatN {op : Nat} (h : op < 16) (nnn : Addr12) : fieldNNN (formatN op nnn) = nnn := by
  have := nnn.isLt
  apply BitVec.eq_of_toNat_eq
  rw [fieldNNN_toNat, formatN_toNat h]; omega

theorem fieldOp_formatXK {op kk : Nat} (h : op < 16) (hk : kk < 256) (x : RegNum) :
    fieldOp (formatXK op x kk) = op := by
  rw [fieldOp_eq, formatXK_toNat h hk]; omega

theorem fieldX_formatXK {op kk : Nat} (h : op < 16) (hk : kk < 256) (x : RegNum) :
    fieldX (formatXK op x kk) = x := by
  apply Fin.ext
  rw [fieldX_val, formatXK_toNat h hk]; omega

theorem fieldKK_formatXK {op kk : Nat} (h : op < 16) (hk : kk < 256) (x : RegNum) :
    (fieldKK (formatXK op x kk)).toNat = kk := by
  rw [fieldKK_toNat, formatXK_toNat h hk]; omega

theorem fieldKK_formatXK_byte {op : Nat} (h : op < 16) (x : RegNum) (kk : Byte) :
    fieldKK (formatXK op x kk.toNat) = kk :=
  BitVec.eq_of_toNat_eq (fieldKK_formatXK h kk.isLt x)

theorem fieldOp_formatXYN {op n : Nat} (h : op < 16) (hn : n < 16) (x y : RegNum) :
    fieldOp (formatXYN op x y n) = op := by
  rw [fieldOp_eq, formatXYN_toNat h hn]; omega

theorem fieldX_formatXYN {op n : Nat} (h : op < 16) (hn : n < 16) (x y : RegNum) :
    fieldX (formatXYN op x y n) = x := by
  apply Fin.ext
  rw [fieldX_val, formatXYN_toNat h hn]; omega

theorem fieldY_formatXYN {op n : Nat} (h : op < 16) (hn : n < 16) (x y : RegNum) :
    fieldY (formatXYN op x y n) = y := by
  apply Fin.ext
  rw [fieldY_val, formatXYN_toNat h hn]; omega

theorem fieldN_formatXYN {op n : Nat} (h : op < 16) (hn : n < 16) (x y : RegNum) :
    fieldN (formatXYN op x y n) = n := by
  rw [fieldN_eq, formatXYN_toNat h hn]; omega

/-! ## Bytes and words -/

theorem wordOfBytes_toNat (hi lo : Byte) : (wordOfBytes hi lo).toNat = hi.toNat * 256 + lo.toNat := by
  have := lo.isLt
  rw [wordOfBytes, BitVec.toNat_append, Nat.shiftLeft_eq, Nat.mul_comm,
    ← Nat.two_pow_add_eq_or_of_lt (by simpa using this)]

/-- A word's two bytes make the word again. -/
theorem wordOfBytes_bytesOfWord (w : Word) : wordOfBytes (w.extractLsb' 8 8) (w.extractLsb' 0 8) = w := by
  have := w.isLt
  apply BitVec.eq_of_toNat_eq
  rw [wordOfBytes_toNat, BitVec.extractLsb'_toNat, BitVec.extractLsb'_toNat, Nat.shiftRight_eq_div_pow,
    Nat.shiftRight_eq_div_pow]
  omega

end Sys2Proof
end

