-- ==== Sys2Proof/Laws/Memory.lean ====
section
/-! SUPPORT. The laws of memory: a read after a write, and the canonical form every write keeps. -/

namespace Sys2Proof.Machine

theorem read_insert (c : Host.Cell) (m : Memory) (a : Nat) (h : ∀ d ∈ m, d.1 ≠ c.1) :
    (Memory.insert c m).read a = if c.1 = a then c.2 else m.read a := by
  induction m with
  | nil => simp [Memory.insert, Memory.read]
  | cons d m ih =>
    have hd : d.1 ≠ c.1 := h d (by simp)
    have ih := ih fun e he => h e (List.mem_cons_of_mem _ he)
    by_cases hcd : c.1 < d.1
    · simp [Memory.insert, Memory.read, hcd]
    · rw [Memory.insert, if_neg hcd, Memory.read, Memory.read, ih]
      by_cases hda : d.1 = a
      · rw [if_pos hda, if_pos hda, if_neg]
        exact fun hca => hd (hda.trans hca.symm)
      · rw [if_neg hda, if_neg hda]

theorem read_filter_ne (m : Memory) (a b : Nat) :
    Memory.read (m.filter fun c => c.1 ≠ a) b = if b = a then unlistedByte b else m.read b := by
  induction m with
  | nil => simp [Memory.read]
  | cons c m ih =>
    by_cases hca : c.1 = a
    · rw [List.filter_cons_of_neg (by simpa using hca), ih, Memory.read]
      by_cases hba : b = a
      · simp [hba]
      · rw [if_neg hba, if_neg hba, if_neg (fun h => hba (h.symm.trans hca))]
    · rw [List.filter_cons_of_pos (by simpa using hca), Memory.read, Memory.read, ih]
      by_cases hcb : c.1 = b
      · rw [if_pos hcb, if_pos hcb, if_neg (fun h => hca (hcb.trans h))]
      · rw [if_neg hcb, if_neg hcb]

/-- A read after a write: the byte written at its address, every other byte as before (20_memory.md R53, R54). -/
theorem read_write (m : Memory) (a b : Nat) (x : Byte) :
    (m.write a x).read b = if b = a then x else m.read b := by
  unfold Memory.write
  by_cases hx : x = unlistedByte a
  · simp only [if_pos hx, read_filter_ne]
    split
    · next h => rw [h, hx]
    · rfl
  · simp only [if_neg hx]
    rw [read_insert _ _ _ (by simp), read_filter_ne]
    by_cases hab : b = a
    · simp [hab]
    · rw [if_neg (fun h => hab h.symm), if_neg hab]
      simp [hab]

/-- A read after a block write: byte `b - a` of the block inside it, every other byte as before. -/
theorem read_writeBytes (bs : List Byte) (m : Memory) (a b : Nat) :
    (m.writeBytes a bs).read b = if a ≤ b ∧ b < a + bs.length then bs.getD (b - a) 0 else m.read b := by
  induction bs generalizing m a with
  | nil => rw [Memory.writeBytes, if_neg (by simp)]
  | cons x bs ih =>
    rw [Memory.writeBytes, ih, read_write]
    by_cases h1 : a + 1 ≤ b ∧ b < a + 1 + bs.length
    · rw [if_pos h1, if_pos (by simp; omega), show b - a = b - (a + 1) + 1 by omega, List.getD_cons_succ]
    · rw [if_neg h1]
      by_cases h2 : b = a
      · subst h2; simp
      · rw [if_neg h2, if_neg (by simp; omega)]

theorem mem_insert (c d : Host.Cell) (m : Memory) : d ∈ Memory.insert c m ↔ d = c ∨ d ∈ m := by
  induction m with
  | nil => simp [Memory.insert]
  | cons e m ih =>
    rw [Memory.insert]
    split
    · simp
    · simp [ih]; tauto

theorem insert_rising (c : Host.Cell) (m : Memory) (hm : m.Pairwise fun d e => d.1 < e.1)
    (hc : ∀ d ∈ m, d.1 ≠ c.1) : (Memory.insert c m).Pairwise fun d e => d.1 < e.1 := by
  induction m with
  | nil => simp [Memory.insert]
  | cons d m ih =>
    rw [List.pairwise_cons] at hm
    have hd : d.1 ≠ c.1 := hc d (by simp)
    rw [Memory.insert]
    split
    · next h =>
      refine List.pairwise_cons.2 ⟨fun e he => ?_, List.pairwise_cons.2 hm⟩
      rcases List.mem_cons.1 he with rfl | he
      · exact h
      · exact h.trans (hm.1 e he)
    · next h =>
      refine List.pairwise_cons.2 ⟨fun e he => ?_, ih hm.2 fun e he => hc e (List.mem_cons_of_mem _ he)⟩
      rcases (mem_insert c e m).1 he with rfl | he
      · omega
      · exact hm.1 e he

/-- A write at an address that exists keeps the canonical form. -/
theorem wf_write {m : Memory} (h : m.wf) {a : Nat} (ha : a < Config.memSize) (x : Byte) : (m.write a x).wf := by
  have hf : Memory.wf (m.filter fun c => c.1 ≠ a) :=
    ⟨h.1.filter _, fun c hc => h.2 c (List.mem_of_mem_filter hc)⟩
  unfold Memory.write
  by_cases hx : x = unlistedByte a
  · simpa only [if_pos hx] using hf
  · simp only [if_neg hx]
    refine ⟨insert_rising _ _ hf.1 (by simp), fun c hc => ?_⟩
    rcases (mem_insert _ _ _).1 hc with rfl | hc
    · exact ⟨ha, hx⟩
    · exact hf.2 c hc

/-- A block write inside memory keeps the canonical form. -/
theorem wf_writeBytes (bs : List Byte) {m : Memory} (h : m.wf) {a : Nat} (ha : a + bs.length ≤ Config.memSize) :
    (m.writeBytes a bs).wf := by
  induction bs generalizing m a with
  | nil => exact h
  | cons x bs ih =>
    rw [List.length_cons] at ha
    exact ih (wf_write h (by omega) x) (by omega)

theorem wf_nil : Memory.wf [] := ⟨List.Pairwise.nil, by simp⟩

/-- Two memories in canonical form that read alike at every address are the same data. -/
theorem wf_ext {m n : Memory} (hm : m.wf) (hn : n.wf) (h : ∀ a, m.read a = n.read a) : m = n := by
  have listed : ∀ {m : Memory}, m.wf → ∀ c : Host.Cell, c ∈ m ↔ m.read c.1 = c.2 ∧ c.2 ≠ unlistedByte c.1 := by
    intro m hm c
    induction m with
    | nil => simp [Memory.read]; exact fun h => h.symm
    | cons d m ih =>
      have hp := List.pairwise_cons.1 hm.1
      have ih := ih ⟨hp.2, fun e he => hm.2 e (List.mem_cons_of_mem _ he)⟩
      rw [List.mem_cons, Memory.read]
      by_cases hdc : d.1 = c.1
      · rw [if_pos hdc]
        constructor
        · rintro (rfl | hc)
          · exact ⟨rfl, (hm.2 c (by simp)).2⟩
          · exact absurd (hp.1 c hc) (by omega)
        · exact fun hc => .inl (Prod.ext hdc.symm hc.1.symm)
      · rw [if_neg hdc, ← ih]
        exact ⟨fun hc => hc.resolve_left fun e => hdc (e ▸ rfl), .inr⟩
  have strict : ∀ {m : Memory}, m.wf → m.Pairwise (fun c d => c.1 < d.1) := fun hm => hm.1
  refine List.Perm.eq_of_pairwise (le := fun c d : Host.Cell => c.1 < d.1) (fun c d _ _ h1 h2 => ?_) hm.1 hn.1 ?_
  · exact absurd h1 (by omega)
  · refine (List.perm_ext_iff_of_nodup (hm.1.imp ?_) (hn.1.imp ?_)).2 fun c => ?_
    · intro c d h e; subst e; omega
    · intro c d h e; subst e; omega
    · rw [listed hm, listed hn, h]

end Sys2Proof.Machine
end

