-- ==== Sys2Proof/Laws/State.lean ====
section
/-! SUPPORT. One lemma per field per update, so that no proof unfolds a record update. -/

namespace Sys2Proof.Machine

variable (s : State)

/-! `setV` -/
@[simp] theorem setV_mem (r : RegNum) (b : Byte) : (s.setV r b).mem = s.mem := rfl
@[simp] theorem setV_v (r : RegNum) (b : Byte) : (s.setV r b).v = s.v.set r.val b r.isLt := rfl
@[simp] theorem setV_i (r : RegNum) (b : Byte) : (s.setV r b).i = s.i := rfl
@[simp] theorem setV_pc (r : RegNum) (b : Byte) : (s.setV r b).pc = s.pc := rfl
@[simp] theorem setV_stack (r : RegNum) (b : Byte) : (s.setV r b).stack = s.stack := rfl
@[simp] theorem setV_sp (r : RegNum) (b : Byte) : (s.setV r b).sp = s.sp := rfl
@[simp] theorem setV_dt (r : RegNum) (b : Byte) : (s.setV r b).dt = s.dt := rfl
@[simp] theorem setV_st (r : RegNum) (b : Byte) : (s.setV r b).st = s.st := rfl
@[simp] theorem setV_disp (r : RegNum) (b : Byte) : (s.setV r b).disp = s.disp := rfl
@[simp] theorem setV_key (r : RegNum) (b : Byte) : (s.setV r b).key = s.key := rfl
@[simp] theorem setV_fault (r : RegNum) (b : Byte) : (s.setV r b).fault = s.fault := rfl
@[simp] theorem setV_entropyPending (r : RegNum) (b : Byte) : (s.setV r b).entropyPending = s.entropyPending := rfl
@[simp] theorem setV_entropyCount (r : RegNum) (b : Byte) : (s.setV r b).entropyCount = s.entropyCount := rfl

/-! `setVFlag` -/
@[simp] theorem setVFlag_mem (x : RegNum) (b c : Byte) : (s.setVFlag x b c).mem = s.mem := rfl
@[simp] theorem setVFlag_v (x : RegNum) (b c : Byte) : (s.setVFlag x b c).v = ((s.setV x b).setV regVF c).v := rfl
@[simp] theorem setVFlag_i (x : RegNum) (b c : Byte) : (s.setVFlag x b c).i = s.i := rfl
@[simp] theorem setVFlag_pc (x : RegNum) (b c : Byte) : (s.setVFlag x b c).pc = s.pc := rfl
@[simp] theorem setVFlag_stack (x : RegNum) (b c : Byte) : (s.setVFlag x b c).stack = s.stack := rfl
@[simp] theorem setVFlag_sp (x : RegNum) (b c : Byte) : (s.setVFlag x b c).sp = s.sp := rfl
@[simp] theorem setVFlag_dt (x : RegNum) (b c : Byte) : (s.setVFlag x b c).dt = s.dt := rfl
@[simp] theorem setVFlag_st (x : RegNum) (b c : Byte) : (s.setVFlag x b c).st = s.st := rfl
@[simp] theorem setVFlag_disp (x : RegNum) (b c : Byte) : (s.setVFlag x b c).disp = s.disp := rfl
@[simp] theorem setVFlag_key (x : RegNum) (b c : Byte) : (s.setVFlag x b c).key = s.key := rfl
@[simp] theorem setVFlag_fault (x : RegNum) (b c : Byte) : (s.setVFlag x b c).fault = s.fault := rfl
@[simp] theorem setVFlag_entropyPending (x : RegNum) (b c : Byte) : (s.setVFlag x b c).entropyPending = s.entropyPending := rfl
@[simp] theorem setVFlag_entropyCount (x : RegNum) (b c : Byte) : (s.setVFlag x b c).entropyCount = s.entropyCount := rfl

/-! `setRegBlock` -/
@[simp] theorem setRegBlock_mem (x : RegNum) (g : Nat → Byte) : (s.setRegBlock x g).mem = s.mem := rfl
@[simp] theorem setRegBlock_i (x : RegNum) (g : Nat → Byte) : (s.setRegBlock x g).i = s.i := rfl
@[simp] theorem setRegBlock_pc (x : RegNum) (g : Nat → Byte) : (s.setRegBlock x g).pc = s.pc := rfl
@[simp] theorem setRegBlock_stack (x : RegNum) (g : Nat → Byte) : (s.setRegBlock x g).stack = s.stack := rfl
@[simp] theorem setRegBlock_sp (x : RegNum) (g : Nat → Byte) : (s.setRegBlock x g).sp = s.sp := rfl
@[simp] theorem setRegBlock_dt (x : RegNum) (g : Nat → Byte) : (s.setRegBlock x g).dt = s.dt := rfl
@[simp] theorem setRegBlock_st (x : RegNum) (g : Nat → Byte) : (s.setRegBlock x g).st = s.st := rfl
@[simp] theorem setRegBlock_disp (x : RegNum) (g : Nat → Byte) : (s.setRegBlock x g).disp = s.disp := rfl
@[simp] theorem setRegBlock_key (x : RegNum) (g : Nat → Byte) : (s.setRegBlock x g).key = s.key := rfl
@[simp] theorem setRegBlock_fault (x : RegNum) (g : Nat → Byte) : (s.setRegBlock x g).fault = s.fault := rfl
@[simp] theorem setRegBlock_entropyPending (x : RegNum) (g : Nat → Byte) : (s.setRegBlock x g).entropyPending = s.entropyPending := rfl
@[simp] theorem setRegBlock_entropyCount (x : RegNum) (g : Nat → Byte) : (s.setRegBlock x g).entropyCount = s.entropyCount := rfl

/-! `setI` -/
@[simp] theorem setI_mem (w : Word) : (s.setI w).mem = s.mem := rfl
@[simp] theorem setI_v (w : Word) : (s.setI w).v = s.v := rfl
@[simp] theorem setI_i (w : Word) : (s.setI w).i = w := rfl
@[simp] theorem setI_pc (w : Word) : (s.setI w).pc = s.pc := rfl
@[simp] theorem setI_stack (w : Word) : (s.setI w).stack = s.stack := rfl
@[simp] theorem setI_sp (w : Word) : (s.setI w).sp = s.sp := rfl
@[simp] theorem setI_dt (w : Word) : (s.setI w).dt = s.dt := rfl
@[simp] theorem setI_st (w : Word) : (s.setI w).st = s.st := rfl
@[simp] theorem setI_disp (w : Word) : (s.setI w).disp = s.disp := rfl
@[simp] theorem setI_key (w : Word) : (s.setI w).key = s.key := rfl
@[simp] theorem setI_fault (w : Word) : (s.setI w).fault = s.fault := rfl
@[simp] theorem setI_entropyPending (w : Word) : (s.setI w).entropyPending = s.entropyPending := rfl
@[simp] theorem setI_entropyCount (w : Word) : (s.setI w).entropyCount = s.entropyCount := rfl

/-! `setPc` -/
@[simp] theorem setPc_mem (w : Word) : (s.setPc w).mem = s.mem := rfl
@[simp] theorem setPc_v (w : Word) : (s.setPc w).v = s.v := rfl
@[simp] theorem setPc_i (w : Word) : (s.setPc w).i = s.i := rfl
@[simp] theorem setPc_pc (w : Word) : (s.setPc w).pc = w := rfl
@[simp] theorem setPc_stack (w : Word) : (s.setPc w).stack = s.stack := rfl
@[simp] theorem setPc_sp (w : Word) : (s.setPc w).sp = s.sp := rfl
@[simp] theorem setPc_dt (w : Word) : (s.setPc w).dt = s.dt := rfl
@[simp] theorem setPc_st (w : Word) : (s.setPc w).st = s.st := rfl
@[simp] theorem setPc_disp (w : Word) : (s.setPc w).disp = s.disp := rfl
@[simp] theorem setPc_key (w : Word) : (s.setPc w).key = s.key := rfl
@[simp] theorem setPc_fault (w : Word) : (s.setPc w).fault = s.fault := rfl
@[simp] theorem setPc_entropyPending (w : Word) : (s.setPc w).entropyPending = s.entropyPending := rfl
@[simp] theorem setPc_entropyCount (w : Word) : (s.setPc w).entropyCount = s.entropyCount := rfl

/-! `advance` -/
@[simp] theorem advance_mem : (s.advance).mem = s.mem := rfl
@[simp] theorem advance_v : (s.advance).v = s.v := rfl
@[simp] theorem advance_i : (s.advance).i = s.i := rfl
@[simp] theorem advance_pc : (s.advance).pc = s.pc + 2 := rfl
@[simp] theorem advance_stack : (s.advance).stack = s.stack := rfl
@[simp] theorem advance_sp : (s.advance).sp = s.sp := rfl
@[simp] theorem advance_dt : (s.advance).dt = s.dt := rfl
@[simp] theorem advance_st : (s.advance).st = s.st := rfl
@[simp] theorem advance_disp : (s.advance).disp = s.disp := rfl
@[simp] theorem advance_key : (s.advance).key = s.key := rfl
@[simp] theorem advance_fault : (s.advance).fault = s.fault := rfl
@[simp] theorem advance_entropyPending : (s.advance).entropyPending = s.entropyPending := rfl
@[simp] theorem advance_entropyCount : (s.advance).entropyCount = s.entropyCount := rfl

/-! `skipIf` -/
@[simp] theorem skipIf_mem (c : Bool) : (s.skipIf c).mem = s.mem := rfl
@[simp] theorem skipIf_v (c : Bool) : (s.skipIf c).v = s.v := rfl
@[simp] theorem skipIf_i (c : Bool) : (s.skipIf c).i = s.i := rfl
@[simp] theorem skipIf_pc (c : Bool) : (s.skipIf c).pc = s.pc + if c then 4 else 2 := rfl
@[simp] theorem skipIf_stack (c : Bool) : (s.skipIf c).stack = s.stack := rfl
@[simp] theorem skipIf_sp (c : Bool) : (s.skipIf c).sp = s.sp := rfl
@[simp] theorem skipIf_dt (c : Bool) : (s.skipIf c).dt = s.dt := rfl
@[simp] theorem skipIf_st (c : Bool) : (s.skipIf c).st = s.st := rfl
@[simp] theorem skipIf_disp (c : Bool) : (s.skipIf c).disp = s.disp := rfl
@[simp] theorem skipIf_key (c : Bool) : (s.skipIf c).key = s.key := rfl
@[simp] theorem skipIf_fault (c : Bool) : (s.skipIf c).fault = s.fault := rfl
@[simp] theorem skipIf_entropyPending (c : Bool) : (s.skipIf c).entropyPending = s.entropyPending := rfl
@[simp] theorem skipIf_entropyCount (c : Bool) : (s.skipIf c).entropyCount = s.entropyCount := rfl

/-! `setDT` -/
@[simp] theorem setDT_mem (b : Byte) : (s.setDT b).mem = s.mem := rfl
@[simp] theorem setDT_v (b : Byte) : (s.setDT b).v = s.v := rfl
@[simp] theorem setDT_i (b : Byte) : (s.setDT b).i = s.i := rfl
@[simp] theorem setDT_pc (b : Byte) : (s.setDT b).pc = s.pc := rfl
@[simp] theorem setDT_stack (b : Byte) : (s.setDT b).stack = s.stack := rfl
@[simp] theorem setDT_sp (b : Byte) : (s.setDT b).sp = s.sp := rfl
@[simp] theorem setDT_dt (b : Byte) : (s.setDT b).dt = b := rfl
@[simp] theorem setDT_st (b : Byte) : (s.setDT b).st = s.st := rfl
@[simp] theorem setDT_disp (b : Byte) : (s.setDT b).disp = s.disp := rfl
@[simp] theorem setDT_key (b : Byte) : (s.setDT b).key = s.key := rfl
@[simp] theorem setDT_fault (b : Byte) : (s.setDT b).fault = s.fault := rfl
@[simp] theorem setDT_entropyPending (b : Byte) : (s.setDT b).entropyPending = s.entropyPending := rfl
@[simp] theorem setDT_entropyCount (b : Byte) : (s.setDT b).entropyCount = s.entropyCount := rfl

/-! `setST` -/
@[simp] theorem setST_mem (b : Byte) : (s.setST b).mem = s.mem := rfl
@[simp] theorem setST_v (b : Byte) : (s.setST b).v = s.v := rfl
@[simp] theorem setST_i (b : Byte) : (s.setST b).i = s.i := rfl
@[simp] theorem setST_pc (b : Byte) : (s.setST b).pc = s.pc := rfl
@[simp] theorem setST_stack (b : Byte) : (s.setST b).stack = s.stack := rfl
@[simp] theorem setST_sp (b : Byte) : (s.setST b).sp = s.sp := rfl
@[simp] theorem setST_dt (b : Byte) : (s.setST b).dt = s.dt := rfl
@[simp] theorem setST_st (b : Byte) : (s.setST b).st = b := rfl
@[simp] theorem setST_disp (b : Byte) : (s.setST b).disp = s.disp := rfl
@[simp] theorem setST_key (b : Byte) : (s.setST b).key = s.key := rfl
@[simp] theorem setST_fault (b : Byte) : (s.setST b).fault = s.fault := rfl
@[simp] theorem setST_entropyPending (b : Byte) : (s.setST b).entropyPending = s.entropyPending := rfl
@[simp] theorem setST_entropyCount (b : Byte) : (s.setST b).entropyCount = s.entropyCount := rfl

/-! `setDisp` -/
@[simp] theorem setDisp_mem (d : Display) : (s.setDisp d).mem = s.mem := rfl
@[simp] theorem setDisp_v (d : Display) : (s.setDisp d).v = s.v := rfl
@[simp] theorem setDisp_i (d : Display) : (s.setDisp d).i = s.i := rfl
@[simp] theorem setDisp_pc (d : Display) : (s.setDisp d).pc = s.pc := rfl
@[simp] theorem setDisp_stack (d : Display) : (s.setDisp d).stack = s.stack := rfl
@[simp] theorem setDisp_sp (d : Display) : (s.setDisp d).sp = s.sp := rfl
@[simp] theorem setDisp_dt (d : Display) : (s.setDisp d).dt = s.dt := rfl
@[simp] theorem setDisp_st (d : Display) : (s.setDisp d).st = s.st := rfl
@[simp] theorem setDisp_disp (d : Display) : (s.setDisp d).disp = d := rfl
@[simp] theorem setDisp_key (d : Display) : (s.setDisp d).key = s.key := rfl
@[simp] theorem setDisp_fault (d : Display) : (s.setDisp d).fault = s.fault := rfl
@[simp] theorem setDisp_entropyPending (d : Display) : (s.setDisp d).entropyPending = s.entropyPending := rfl
@[simp] theorem setDisp_entropyCount (d : Display) : (s.setDisp d).entropyCount = s.entropyCount := rfl

/-! `latch` -/
@[simp] theorem latch_mem (f : Fault) : (s.latch f).mem = s.mem := rfl
@[simp] theorem latch_v (f : Fault) : (s.latch f).v = s.v := rfl
@[simp] theorem latch_i (f : Fault) : (s.latch f).i = s.i := rfl
@[simp] theorem latch_pc (f : Fault) : (s.latch f).pc = s.pc := rfl
@[simp] theorem latch_stack (f : Fault) : (s.latch f).stack = s.stack := rfl
@[simp] theorem latch_sp (f : Fault) : (s.latch f).sp = s.sp := rfl
@[simp] theorem latch_dt (f : Fault) : (s.latch f).dt = s.dt := rfl
@[simp] theorem latch_st (f : Fault) : (s.latch f).st = s.st := rfl
@[simp] theorem latch_disp (f : Fault) : (s.latch f).disp = s.disp := rfl
@[simp] theorem latch_key (f : Fault) : (s.latch f).key = s.key := rfl
@[simp] theorem latch_fault (f : Fault) : (s.latch f).fault = some f := rfl
@[simp] theorem latch_entropyPending (f : Fault) : (s.latch f).entropyPending = s.entropyPending := rfl
@[simp] theorem latch_entropyCount (f : Fault) : (s.latch f).entropyCount = s.entropyCount := rfl

/-! `writeAtIndex` -/
@[simp] theorem writeAtIndex_mem (bs : List Byte) : (s.writeAtIndex bs).mem = s.mem.writeBytes s.i.toNat bs := rfl
@[simp] theorem writeAtIndex_v (bs : List Byte) : (s.writeAtIndex bs).v = s.v := rfl
@[simp] theorem writeAtIndex_i (bs : List Byte) : (s.writeAtIndex bs).i = s.i := rfl
@[simp] theorem writeAtIndex_pc (bs : List Byte) : (s.writeAtIndex bs).pc = s.pc := rfl
@[simp] theorem writeAtIndex_stack (bs : List Byte) : (s.writeAtIndex bs).stack = s.stack := rfl
@[simp] theorem writeAtIndex_sp (bs : List Byte) : (s.writeAtIndex bs).sp = s.sp := rfl
@[simp] theorem writeAtIndex_dt (bs : List Byte) : (s.writeAtIndex bs).dt = s.dt := rfl
@[simp] theorem writeAtIndex_st (bs : List Byte) : (s.writeAtIndex bs).st = s.st := rfl
@[simp] theorem writeAtIndex_disp (bs : List Byte) : (s.writeAtIndex bs).disp = s.disp := rfl
@[simp] theorem writeAtIndex_key (bs : List Byte) : (s.writeAtIndex bs).key = s.key := rfl
@[simp] theorem writeAtIndex_fault (bs : List Byte) : (s.writeAtIndex bs).fault = s.fault := rfl
@[simp] theorem writeAtIndex_entropyPending (bs : List Byte) : (s.writeAtIndex bs).entropyPending = s.entropyPending := rfl
@[simp] theorem writeAtIndex_entropyCount (bs : List Byte) : (s.writeAtIndex bs).entropyCount = s.entropyCount := rfl

/-! `push` -/
@[simp] theorem push_mem (w : Word) (h : s.sp.val < 16) : (s.push w h).mem = s.mem := rfl
@[simp] theorem push_v (w : Word) (h : s.sp.val < 16) : (s.push w h).v = s.v := rfl
@[simp] theorem push_i (w : Word) (h : s.sp.val < 16) : (s.push w h).i = s.i := rfl
@[simp] theorem push_pc (w : Word) (h : s.sp.val < 16) : (s.push w h).pc = s.pc := rfl
@[simp] theorem push_stack (w : Word) (h : s.sp.val < 16) : (s.push w h).stack = s.stack.set s.sp.val w h := rfl
@[simp] theorem push_sp (w : Word) (h : s.sp.val < 16) : (s.push w h).sp = ⟨s.sp.val + 1, by omega⟩ := rfl
@[simp] theorem push_dt (w : Word) (h : s.sp.val < 16) : (s.push w h).dt = s.dt := rfl
@[simp] theorem push_st (w : Word) (h : s.sp.val < 16) : (s.push w h).st = s.st := rfl
@[simp] theorem push_disp (w : Word) (h : s.sp.val < 16) : (s.push w h).disp = s.disp := rfl
@[simp] theorem push_key (w : Word) (h : s.sp.val < 16) : (s.push w h).key = s.key := rfl
@[simp] theorem push_fault (w : Word) (h : s.sp.val < 16) : (s.push w h).fault = s.fault := rfl
@[simp] theorem push_entropyPending (w : Word) (h : s.sp.val < 16) : (s.push w h).entropyPending = s.entropyPending := rfl
@[simp] theorem push_entropyCount (w : Word) (h : s.sp.val < 16) : (s.push w h).entropyCount = s.entropyCount := rfl

/-! `popPc` -/
@[simp] theorem popPc_mem (h : 0 < s.sp.val) : (s.popPc h).mem = s.mem := rfl
@[simp] theorem popPc_v (h : 0 < s.sp.val) : (s.popPc h).v = s.v := rfl
@[simp] theorem popPc_i (h : 0 < s.sp.val) : (s.popPc h).i = s.i := rfl
@[simp] theorem popPc_pc (h : 0 < s.sp.val) : (s.popPc h).pc = s.stack[s.sp.val - 1]'(by omega) := rfl
@[simp] theorem popPc_stack (h : 0 < s.sp.val) : (s.popPc h).stack = s.stack := rfl
@[simp] theorem popPc_sp (h : 0 < s.sp.val) : (s.popPc h).sp = ⟨s.sp.val - 1, by omega⟩ := rfl
@[simp] theorem popPc_dt (h : 0 < s.sp.val) : (s.popPc h).dt = s.dt := rfl
@[simp] theorem popPc_st (h : 0 < s.sp.val) : (s.popPc h).st = s.st := rfl
@[simp] theorem popPc_disp (h : 0 < s.sp.val) : (s.popPc h).disp = s.disp := rfl
@[simp] theorem popPc_key (h : 0 < s.sp.val) : (s.popPc h).key = s.key := rfl
@[simp] theorem popPc_fault (h : 0 < s.sp.val) : (s.popPc h).fault = s.fault := rfl
@[simp] theorem popPc_entropyPending (h : 0 < s.sp.val) : (s.popPc h).entropyPending = s.entropyPending := rfl
@[simp] theorem popPc_entropyCount (h : 0 < s.sp.val) : (s.popPc h).entropyCount = s.entropyCount := rfl

/-! `entropyAsked` -/
@[simp] theorem entropyAsked_mem : (s.entropyAsked).mem = s.mem := rfl
@[simp] theorem entropyAsked_v : (s.entropyAsked).v = s.v := rfl
@[simp] theorem entropyAsked_i : (s.entropyAsked).i = s.i := rfl
@[simp] theorem entropyAsked_pc : (s.entropyAsked).pc = s.pc := rfl
@[simp] theorem entropyAsked_stack : (s.entropyAsked).stack = s.stack := rfl
@[simp] theorem entropyAsked_sp : (s.entropyAsked).sp = s.sp := rfl
@[simp] theorem entropyAsked_dt : (s.entropyAsked).dt = s.dt := rfl
@[simp] theorem entropyAsked_st : (s.entropyAsked).st = s.st := rfl
@[simp] theorem entropyAsked_disp : (s.entropyAsked).disp = s.disp := rfl
@[simp] theorem entropyAsked_key : (s.entropyAsked).key = s.key := rfl
@[simp] theorem entropyAsked_fault : (s.entropyAsked).fault = s.fault := rfl
@[simp] theorem entropyAsked_entropyPending : (s.entropyAsked).entropyPending = s.entropyPending.tail := rfl
@[simp] theorem entropyAsked_entropyCount : (s.entropyAsked).entropyCount = s.entropyCount + 1 := rfl

/-! `tickTimers` -/
@[simp] theorem tickTimers_mem : (tickTimers s).mem = s.mem := rfl
@[simp] theorem tickTimers_v : (tickTimers s).v = s.v := rfl
@[simp] theorem tickTimers_i : (tickTimers s).i = s.i := rfl
@[simp] theorem tickTimers_pc : (tickTimers s).pc = s.pc := rfl
@[simp] theorem tickTimers_stack : (tickTimers s).stack = s.stack := rfl
@[simp] theorem tickTimers_sp : (tickTimers s).sp = s.sp := rfl
@[simp] theorem tickTimers_dt : (tickTimers s).dt = tickTimer s.dt := rfl
@[simp] theorem tickTimers_st : (tickTimers s).st = tickTimer s.st := rfl
@[simp] theorem tickTimers_disp : (tickTimers s).disp = s.disp := rfl
@[simp] theorem tickTimers_key : (tickTimers s).key = s.key := rfl
@[simp] theorem tickTimers_fault : (tickTimers s).fault = s.fault := rfl
@[simp] theorem tickTimers_entropyPending : (tickTimers s).entropyPending = s.entropyPending := rfl
@[simp] theorem tickTimers_entropyCount : (tickTimers s).entropyCount = s.entropyCount := rfl

/-! `setKey` -/
@[simp] theorem setKey_mem (k : RegNum) (p : Bool) : (setKey k p s).mem = s.mem := rfl
@[simp] theorem setKey_v (k : RegNum) (p : Bool) : (setKey k p s).v = s.v := rfl
@[simp] theorem setKey_i (k : RegNum) (p : Bool) : (setKey k p s).i = s.i := rfl
@[simp] theorem setKey_pc (k : RegNum) (p : Bool) : (setKey k p s).pc = s.pc := rfl
@[simp] theorem setKey_stack (k : RegNum) (p : Bool) : (setKey k p s).stack = s.stack := rfl
@[simp] theorem setKey_sp (k : RegNum) (p : Bool) : (setKey k p s).sp = s.sp := rfl
@[simp] theorem setKey_dt (k : RegNum) (p : Bool) : (setKey k p s).dt = s.dt := rfl
@[simp] theorem setKey_st (k : RegNum) (p : Bool) : (setKey k p s).st = s.st := rfl
@[simp] theorem setKey_disp (k : RegNum) (p : Bool) : (setKey k p s).disp = s.disp := rfl
@[simp] theorem setKey_key (k : RegNum) (p : Bool) : (setKey k p s).key = s.key.set k.val p k.isLt := rfl
@[simp] theorem setKey_fault (k : RegNum) (p : Bool) : (setKey k p s).fault = s.fault := rfl
@[simp] theorem setKey_entropyPending (k : RegNum) (p : Bool) : (setKey k p s).entropyPending = s.entropyPending := rfl
@[simp] theorem setKey_entropyCount (k : RegNum) (p : Bool) : (setKey k p s).entropyCount = s.entropyCount := rfl

/-! `loadBytes` -/
@[simp] theorem loadBytes_mem (bs : List Byte) : (loadBytes bs s).mem = s.mem.writeBytes Config.progBase bs := rfl
@[simp] theorem loadBytes_v (bs : List Byte) : (loadBytes bs s).v = s.v := rfl
@[simp] theorem loadBytes_i (bs : List Byte) : (loadBytes bs s).i = s.i := rfl
@[simp] theorem loadBytes_pc (bs : List Byte) : (loadBytes bs s).pc = s.pc := rfl
@[simp] theorem loadBytes_stack (bs : List Byte) : (loadBytes bs s).stack = s.stack := rfl
@[simp] theorem loadBytes_sp (bs : List Byte) : (loadBytes bs s).sp = s.sp := rfl
@[simp] theorem loadBytes_dt (bs : List Byte) : (loadBytes bs s).dt = s.dt := rfl
@[simp] theorem loadBytes_st (bs : List Byte) : (loadBytes bs s).st = s.st := rfl
@[simp] theorem loadBytes_disp (bs : List Byte) : (loadBytes bs s).disp = s.disp := rfl
@[simp] theorem loadBytes_key (bs : List Byte) : (loadBytes bs s).key = s.key := rfl
@[simp] theorem loadBytes_fault (bs : List Byte) : (loadBytes bs s).fault = s.fault := rfl
@[simp] theorem loadBytes_entropyPending (bs : List Byte) : (loadBytes bs s).entropyPending = s.entropyPending := rfl
@[simp] theorem loadBytes_entropyCount (bs : List Byte) : (loadBytes bs s).entropyCount = s.entropyCount := rfl

/-! `plugEntropy` -/
@[simp] theorem plugEntropy_mem (as : List EntropyAnswer) : (plugEntropy as s).mem = s.mem := rfl
@[simp] theorem plugEntropy_v (as : List EntropyAnswer) : (plugEntropy as s).v = s.v := rfl
@[simp] theorem plugEntropy_i (as : List EntropyAnswer) : (plugEntropy as s).i = s.i := rfl
@[simp] theorem plugEntropy_pc (as : List EntropyAnswer) : (plugEntropy as s).pc = s.pc := rfl
@[simp] theorem plugEntropy_stack (as : List EntropyAnswer) : (plugEntropy as s).stack = s.stack := rfl
@[simp] theorem plugEntropy_sp (as : List EntropyAnswer) : (plugEntropy as s).sp = s.sp := rfl
@[simp] theorem plugEntropy_dt (as : List EntropyAnswer) : (plugEntropy as s).dt = s.dt := rfl
@[simp] theorem plugEntropy_st (as : List EntropyAnswer) : (plugEntropy as s).st = s.st := rfl
@[simp] theorem plugEntropy_disp (as : List EntropyAnswer) : (plugEntropy as s).disp = s.disp := rfl
@[simp] theorem plugEntropy_key (as : List EntropyAnswer) : (plugEntropy as s).key = s.key := rfl
@[simp] theorem plugEntropy_fault (as : List EntropyAnswer) : (plugEntropy as s).fault = s.fault := rfl
@[simp] theorem plugEntropy_entropyPending (as : List EntropyAnswer) : (plugEntropy as s).entropyPending = as := rfl
@[simp] theorem plugEntropy_entropyCount (as : List EntropyAnswer) : (plugEntropy as s).entropyCount = s.entropyCount := rfl

end Sys2Proof.Machine
end

