-- ==== Sys2Proof/Laws/Ops.lean ====
section
/-! SUPPORT. What each shared operation does, said once: register reads after register writes, the bounds check, the fetch,
the stack, pixels, the entropy answer; and reading a byte after any update. -/

namespace Sys2Proof.Machine

/-! ## Registers -/

@[simp] theorem readV_setV (s : State) (r q : RegNum) (b : Byte) :
    (s.setV r b).readV q = if q = r then b else s.readV q := by
  simp only [State.readV, setV_v, Vector.getElem_set, Fin.ext_iff, eq_comm (a := q.val)]

@[simp] theorem readV_setVFlag (s : State) (x q : RegNum) (b c : Byte) :
    (s.setVFlag x b c).readV q = if q = regVF then c else if q = x then b else s.readV q := by
  rw [State.setVFlag, readV_setV, readV_setV]

@[simp] theorem readV_setRegBlock (s : State) (x q : RegNum) (g : Nat → Byte) :
    (s.setRegBlock x g).readV q = if q ≤ x then g q.val else s.readV q := by
  rw [State.setRegBlock, State.readV, Vector.getElem_ofFn]; rfl

/-- Two states with the same register file read alike. -/
theorem readV_congr {s t : State} (h : t.v = s.v) (q : RegNum) : t.readV q = s.readV q := by
  rw [State.readV, State.readV, h]

@[simp] theorem readV_advance (s : State) (q : RegNum) : s.advance.readV q = s.readV q := rfl
@[simp] theorem readV_skipIf (s : State) (c : Bool) (q : RegNum) : (s.skipIf c).readV q = s.readV q := rfl
@[simp] theorem readV_setPc (s : State) (w : Word) (q : RegNum) : (s.setPc w).readV q = s.readV q := rfl
@[simp] theorem readV_setI (s : State) (w : Word) (q : RegNum) : (s.setI w).readV q = s.readV q := rfl
@[simp] theorem readV_setDT (s : State) (b : Byte) (q : RegNum) : (s.setDT b).readV q = s.readV q := rfl
@[simp] theorem readV_setST (s : State) (b : Byte) (q : RegNum) : (s.setST b).readV q = s.readV q := rfl
@[simp] theorem readV_setDisp (s : State) (d : Display) (q : RegNum) : (s.setDisp d).readV q = s.readV q := rfl
@[simp] theorem readV_latch (s : State) (f : Fault) (q : RegNum) : (s.latch f).readV q = s.readV q := rfl
@[simp] theorem readV_writeAtIndex (s : State) (bs : List Byte) (q : RegNum) :
    (s.writeAtIndex bs).readV q = s.readV q := rfl
@[simp] theorem readV_push (s : State) (w : Word) (h : s.sp.val < 16) (q : RegNum) :
    (s.push w h).readV q = s.readV q := rfl
@[simp] theorem readV_popPc (s : State) (h : 0 < s.sp.val) (q : RegNum) : (s.popPc h).readV q = s.readV q := rfl
@[simp] theorem readV_entropyAsked (s : State) (q : RegNum) : s.entropyAsked.readV q = s.readV q := rfl

/-! ## Memory -/

/-- Two states with the same memory read alike. -/
theorem readByte_congr {s t : State} (h : t.mem = s.mem) (a : Nat) : t.readByte a = s.readByte a := by
  rw [State.readByte, State.readByte, h]

@[simp] theorem readByte_setV (s : State) (r : RegNum) (b : Byte) (a : Nat) :
    (s.setV r b).readByte a = s.readByte a := rfl
@[simp] theorem readByte_setVFlag (s : State) (x : RegNum) (b c : Byte) (a : Nat) :
    (s.setVFlag x b c).readByte a = s.readByte a := rfl
@[simp] theorem readByte_setRegBlock (s : State) (x : RegNum) (g : Nat → Byte) (a : Nat) :
    (s.setRegBlock x g).readByte a = s.readByte a := rfl
@[simp] theorem readByte_advance (s : State) (a : Nat) : s.advance.readByte a = s.readByte a := rfl
@[simp] theorem readByte_skipIf (s : State) (c : Bool) (a : Nat) : (s.skipIf c).readByte a = s.readByte a := rfl
@[simp] theorem readByte_setPc (s : State) (w : Word) (a : Nat) : (s.setPc w).readByte a = s.readByte a := rfl
@[simp] theorem readByte_setI (s : State) (w : Word) (a : Nat) : (s.setI w).readByte a = s.readByte a := rfl
@[simp] theorem readByte_setDT (s : State) (b : Byte) (a : Nat) : (s.setDT b).readByte a = s.readByte a := rfl
@[simp] theorem readByte_setST (s : State) (b : Byte) (a : Nat) : (s.setST b).readByte a = s.readByte a := rfl
@[simp] theorem readByte_setDisp (s : State) (d : Display) (a : Nat) : (s.setDisp d).readByte a = s.readByte a := rfl
@[simp] theorem readByte_latch (s : State) (f : Fault) (a : Nat) : (s.latch f).readByte a = s.readByte a := rfl
@[simp] theorem readByte_push (s : State) (w : Word) (h : s.sp.val < 16) (a : Nat) :
    (s.push w h).readByte a = s.readByte a := rfl
@[simp] theorem readByte_popPc (s : State) (h : 0 < s.sp.val) (a : Nat) : (s.popPc h).readByte a = s.readByte a := rfl
@[simp] theorem readByte_entropyAsked (s : State) (a : Nat) : s.entropyAsked.readByte a = s.readByte a := rfl

/-- A byte read after a block write at I. -/
theorem readByte_writeAtIndex (s : State) (bs : List Byte) (a : Nat) :
    (s.writeAtIndex bs).readByte a =
      if s.i.toNat ≤ a ∧ a < s.i.toNat + bs.length then bs.getD (a - s.i.toNat) 0 else s.readByte a :=
  read_writeBytes bs s.mem s.i.toNat a

/-- The same in the term the statements use. -/
theorem readByte_writeAtIndex_after (s : State) (bs : List Byte) (a : Nat) :
    (s.writeAtIndex bs).readByte a = byteAfterStore s bs.length (fun k => bs.getD k 0) a :=
  readByte_writeAtIndex s bs a

@[simp] theorem length_bcdDigits (v : Byte) : (bcdDigits v).length = 3 := rfl

@[simp] theorem length_regBlock (s : State) (x : RegNum) : (s.regBlock x).length = x.val + 1 := by
  simp [State.regBlock]

/-- Byte k of the block V0 to Vx is Vk. -/
theorem getD_regBlock (s : State) (x k : RegNum) (h : k ≤ x) : (s.regBlock x).getD k.val 0 = s.readV k := by
  have hk : k.val < (s.regBlock x).length := by rw [length_regBlock]; exact Nat.lt_succ_of_le h
  rw [List.getD_eq_getElem _ _ hk]
  simp [State.regBlock, State.readV]

/-! ## The bounds check (20_memory.md R55) -/

/-- The first bad address among I, ..., I + n - 1: none when the last one exists, else the larger of I and 0x1000. -/
theorem firstOutOfBounds_eq (s : State) (n : Nat) :
    firstOutOfBounds s n = if s.i.toNat + n ≤ 0x1000 ∨ n = 0 then none else some (max s.i.toNat 0x1000) := by
  induction n with
  | zero => simp [firstOutOfBounds]
  | succ n ih =>
    have step : firstOutOfBounds s (n + 1) =
        (firstOutOfBounds s n).or (if s.i.toNat + n > 0xFFF then some (s.i.toNat + n) else none) := by
      unfold firstOutOfBounds
      rw [List.range_succ, List.map_append, List.find?_append]
      by_cases h : s.i.toNat + n > 0xFFF <;> simp [effAddr, h]
    rw [step, ih]
    have hs : ¬ (s.i.toNat + (n + 1) ≤ 0x1000 ∨ n + 1 = 0) ↔ s.i.toNat + n > 0xFFF := by omega
    by_cases h1 : s.i.toNat + n ≤ 0x1000 ∨ n = 0
    · rw [if_pos h1, Option.none_or]
      by_cases h2 : s.i.toNat + n > 0xFFF
      · rw [if_pos h2, if_neg (hs.2 h2), Option.some_inj]
        omega
      · rw [if_neg h2, if_pos (not_not.1 (mt hs.1 h2))]
    · rw [if_neg h1, if_neg (hs.2 (by omega)), Option.some_or]

/-- What a bounds-checked instruction answers: its own next state when every address exists, else the latched fault with
the first bad address. -/
theorem checked_eq (n : Nat) (s t : State) :
    checked n s t = if s.i.toNat + n ≤ 0x1000 ∨ n = 0 then .next t
      else .next (s.latch (.outOfBounds (max s.i.toNat 0x1000))) := by
  unfold checked
  rw [firstOutOfBounds_eq]
  by_cases h : s.i.toNat + n ≤ 0x1000 ∨ n = 0
  · rw [if_pos h, if_pos h]
  · rw [if_neg h, if_neg h]; rfl

/-! ## Fetch (20_memory.md R56) -/

theorem fetch_eq_ok {s : State} (h : s.pc.toNat + 1 < 4096) :
    fetch s = .ok (wordOfBytes (s.readByte s.pc.toNat) (s.readByte (s.pc.toNat + 1))) := by
  rw [fetch, if_neg (by omega)]

theorem fetch_eq_error {s : State} (h : 4096 ≤ s.pc.toNat + 1) : fetch s = .error (.outOfBounds s.pc.toNat) := by
  rw [fetch, if_pos h]

/-! ## Display -/

/-- A pixel after one toggle. -/
theorem pixel_toggle (d : Display) (px qx : Fin 64) (py qy : Fin 32) :
    (d.toggle px py).pixel qx qy = if qx = px ∧ qy = py then !d.pixel px py else d.pixel qx qy := by
  unfold Display.toggle Display.pixel
  by_cases hx : qx = px
  · subst hx
    by_cases hy : qy = py
    · subst hy; simp
    · have hy' : ¬ py.val = qy.val := fun h => hy (Fin.ext h.symm)
      simp [hy, hy']
  · have hx' : ¬ px.val = qx.val := fun h => hx (Fin.ext h.symm)
    simp [hx, hx']

@[simp] theorem pixel_clear (px : Fin 64) (py : Fin 32) : Display.clear.pixel px py = false := by
  simp [Display.clear, Display.pixel]

/-! ## Keys (43_timers_keys.md R165) -/

/-- The lowest key is down, and every lower key is up. -/
theorem lowestKey_eq_some {s : State} {k : RegNum} (h : s.lowestKey = some k) :
    s.key[k.val] = true ∧ ∀ j : RegNum, j < k → s.key[j.val] = false := by
  unfold State.lowestKey at h
  rw [List.find?_eq_some_iff_getElem] at h
  obtain ⟨hk, n, hn, rfl, hlt⟩ := h
  refine ⟨by simpa using hk, fun j hj => ?_⟩
  have hjn : j.val < n := by simpa [Fin.lt_def] using hj
  simpa using hlt j.val hjn

/-- No key is down. -/
theorem lowestKey_eq_none {s : State} : s.lowestKey = none ↔ ∀ k : RegNum, s.key[k.val] = false := by
  simp [State.lowestKey]

end Sys2Proof.Machine
end

