-- ==== Sys2Proof/Laws/Step.lean ====
section
/-! SUPPORT. What the decoder, a step and a fault latch can do, said once: later proofs cite these and do not unfold `step`. -/

namespace Sys2Proof.Machine

/-- The decoder answers an instruction or the unknown word itself; it never finds a whole word truncated. -/
theorem decodeWord_cases (w : Word) : (∃ i, decodeWord w = .instr i) ∨ decodeWord w = .unknownOpcode w := by
  unfold decodeWord decodeOp0 decodeOp8 decodeOpE decodeOpF
  repeat' split
  all_goals first | exact .inl ⟨_, rfl⟩ | exact .inr rfl

/-- The word at the program counter. -/
def wordAtPc (s : State) : Word := wordOfBytes (s.readByte s.pc.toNat) (s.readByte (s.pc.toNat + 1))

/-- Everything a step with a next state can have done: the fetch fault, the decode fault, or one instruction. -/
theorem step_cases {s t : State} (h : step s = .next t) :
    s.fault = none ∧
      ((4096 ≤ s.pc.toNat + 1 ∧ t = s.latch (.outOfBounds s.pc.toNat)) ∨
        (s.pc.toNat + 1 < 4096 ∧ decodeWord (wordAtPc s) = .unknownOpcode (wordAtPc s) ∧
          t = s.latch (.unknownOpcode (wordAtPc s))) ∨
        (s.pc.toNat + 1 < 4096 ∧ ∃ i, decodeWord (wordAtPc s) = .instr i ∧ exec i s = .next t)) := by
  unfold step at h
  cases hf : s.fault with
  | some f => rw [hf] at h; cases h
  | none =>
    refine ⟨rfl, ?_⟩
    rw [hf] at h
    by_cases hp : s.pc.toNat + 1 < 4096
    · rw [fetch_eq_ok hp] at h
      rcases decodeWord_cases (wordAtPc s) with ⟨i, hi⟩ | hu
      · simp only [wordAtPc] at hi
        simp only [hi] at h
        exact .inr (.inr ⟨hp, i, hi, h⟩)
      · simp only [wordAtPc] at hu
        simp only [hu, raise, Host.Outcome.next.injEq] at h
        exact .inr (.inl ⟨hp, hu, h.symm⟩)
    · rw [fetch_eq_error (by omega)] at h
      simp only [raise, Host.Outcome.next.injEq] at h
      exact .inl ⟨by omega, h.symm⟩

/-- A latched machine answers its fault. -/
theorem step_latched {s : State} {f : Fault} (h : s.fault = some f) : step s = .fault f := by
  unfold step; rw [h]; rfl

/-- The instruction the next cycle executes is the one the word at PC decodes to. -/
theorem nextInstr_eq {s : State} {i : Instr} (hp : s.pc.toNat + 1 < 4096)
    (hi : decodeWord (wordAtPc s) = .instr i) : nextInstr s = some i := by
  unfold nextInstr
  rw [fetch_eq_ok hp]
  simp only [wordAtPc] at hi
  simp only [hi]

/-- A running machine whose word decodes runs the instruction. -/
theorem step_instr {s : State} {i : Instr} (hf : s.fault = none) (hp : s.pc.toNat + 1 < 4096)
    (hi : decodeWord (wordAtPc s) = .instr i) : step s = exec i s := by
  unfold step
  rw [hf, fetch_eq_ok hp]
  simp only [wordAtPc] at hi
  simp only [hi]

/-- With no fetchable or no known word there is no instruction to execute. -/
theorem nextInstr_eq_none {s : State}
    (h : 4096 ≤ s.pc.toNat + 1 ∨ decodeWord (wordAtPc s) = .unknownOpcode (wordAtPc s)) : nextInstr s = none := by
  unfold nextInstr
  by_cases hp : s.pc.toNat + 1 < 4096
  · have hu := h.resolve_left (by omega)
    rw [fetch_eq_ok hp]
    simp only [wordAtPc] at hu
    simp only [hu]
  · rw [fetch_eq_error (by omega)]

end Sys2Proof.Machine
end

