-- ==== Sys2Proof/Laws/Exec.lean ====
section
/-! SUPPORT. Everything an instruction can do, said once: `exec_effect` gives the shape of the next state of every
instruction, and later proofs go by cases on it and do not unfold `exec`. -/

namespace Sys2Proof.Machine

/-- The shapes of next states. `Effect s i t`: instruction i can take s to t, and how. -/
inductive Effect (s : State) : Instr → State → Prop where
  /-- a stack check or a bounds check failed: the latch is set and nothing else changes -/
  | raised (i : Instr) (f : Fault)
      (hi : i = .ret ∨ (∃ n, i = .call n) ∨ (∃ x, i = .ldBV x ∨ i = .ldMemV x ∨ i = .ldVMem x) ∨ ∃ x y n, i = .drw x y n)
      (hf : f ≠ .entropySourceFailure) (hl : f.legitimate) : Effect s i (s.latch f)
  | rndFailed (x : RegNum) (kk : Byte) (h : s.nextEntropy = .fail) :
      Effect s (.rnd x kk) (s.entropyAsked.latch .entropySourceFailure)
  | rndDrawn (x : RegNum) (kk b : Byte) (h : s.nextEntropy = .ok b) :
      Effect s (.rnd x kk) (s.entropyAsked.setV x (b &&& kk)).advance
  | returned (h : 0 < s.sp.val) : Effect s .ret (s.popPc h)
  | called (n : Addr12) (h : s.sp.val < 16) : Effect s (.call n) ((s.push (returnAddress s) h).setPc (addrTarget n))
  | jumped (n : Addr12) : Effect s (.jp n) (s.setPc (addrTarget n))
  | jumpedV0 (n : Addr12) : Effect s (.jpV0 n) (s.setPc (indexedTarget n s))
  | skipped (i : Instr) (c : Bool)
      (hi : (∃ x kk, i = .seVB x kk ∨ i = .sneVB x kk) ∨ (∃ x y, i = .seVV x y ∨ i = .sneVV x y) ∨
        ∃ x, i = .skp x ∨ i = .sknp x) : Effect s i (s.skipIf c)
  /-- one register written, no flag -/
  | wroteV (i : Instr) (x : RegNum) (b : Byte)
      (hi : (∃ kk, i = .ldVB x kk ∨ i = .addVB x kk) ∨
        (∃ y, i = .ldVV x y ∨ i = .orVV x y ∨ i = .andVV x y ∨ i = .xorVV x y) ∨ i = .ldVDT x ∨ i = .ldVK x) :
      Effect s i (s.setV x b).advance
  /-- one register and then the flag written -/
  | wroteVFlag (i : Instr) (x : RegNum) (b c : Byte)
      (hi : ∃ y, i = .addVV x y ∨ i = .subVV x y ∨ i = .shr x y ∨ i = .subnVV x y ∨ i = .shl x y) :
      Effect s i (s.setVFlag x b c).advance
  | wroteI (i : Instr) (w : Word) (hi : (∃ n, i = .ldI n) ∨ ∃ x, i = .addIV x ∨ i = .ldFV x) :
      Effect s i (s.setI w).advance
  /-- bytes stored at I, all of them in memory -/
  | stored (i : Instr) (bs : List Byte) (hb : s.i.toNat + bs.length ≤ 0x1000) (hi : ∃ x, i = .ldBV x ∨ i = .ldMemV x) :
      Effect s i (s.writeAtIndex bs).advance
  | loadedBlock (x : RegNum) (g : Nat → Byte) : Effect s (.ldVMem x) (s.setRegBlock x g).advance
  | setDelay (x : RegNum) : Effect s (.ldDTV x) (s.setDT (s.readV x)).advance
  | setSound (x : RegNum) : Effect s (.ldSTV x) (s.setST (s.readV x)).advance
  | waited (x : RegNum) (h : s.lowestKey = none) : Effect s (.ldVK x) s
  | cleared : Effect s .cls (s.setDisp Display.clear).advance
  | drew (x y : RegNum) (n : Nat) (d : Display) (c : Byte) : Effect s (.drw x y n) ((s.setDisp d).setV regVF c).advance

/-- What a bounds-checked operation answers, as two cases. -/
theorem checked_cases {n : Nat} {s u t : State} (h : checked n s u = .next t) :
    (t = u ∧ (s.i.toNat + n ≤ 0x1000 ∨ n = 0)) ∨ ∃ a, 0x1000 ≤ a ∧ t = s.latch (.outOfBounds a) := by
  rw [checked_eq] at h
  split at h
  · next hb => injection h with h; exact .inl ⟨h.symm, hb⟩
  · injection h with h; exact .inr ⟨_, Nat.le_max_right _ _, h.symm⟩

/-- A failed bounds check as an effect. -/
theorem effect_outOfBounds {s : State} {i : Instr} {a : Nat} (ha : 0x1000 ≤ a)
    (hi : (∃ x, i = .ldBV x ∨ i = .ldMemV x ∨ i = .ldVMem x) ∨ ∃ x y n, i = .drw x y n) :
    Effect s i (s.latch (.outOfBounds a)) :=
  .raised i _ (.inr (.inr hi)) (by simp) (by simp only [Fault.legitimate]; omega)

/-- Whatever an instruction does is one of the shapes. -/
theorem exec_effect {i : Instr} {s t : State} (h : exec i s = .next t) : Effect s i t := by
  cases i with
  | ret =>
    simp only [exec, execRet] at h
    split at h <;> injection h with h <;> subst h
    · exact .returned _
    · exact .raised _ _ (by simp) (by simp) trivial
  | call n =>
    simp only [exec, execCall] at h
    split at h <;> injection h with h <;> subst h
    · exact .called n _
    · exact .raised _ _ (by simp) (by simp) trivial
  | rnd x kk =>
    simp only [exec, execRnd] at h
    injection h with h
    cases ha : s.nextEntropy <;> simp only [ha] at h <;> subst h
    · exact .rndDrawn x kk _ ha
    · exact .rndFailed x kk ha
  | ldBV x =>
    rcases checked_cases h with ⟨rfl, hb⟩ | ⟨a, ha, rfl⟩
    · exact .stored _ _ (by rw [length_bcdDigits]; omega) (by simp)
    · exact effect_outOfBounds ha (by simp)
  | ldMemV x =>
    rcases checked_cases h with ⟨rfl, hb⟩ | ⟨a, ha, rfl⟩
    · exact .stored _ _ (by rw [length_regBlock]; omega) (by simp)
    · exact effect_outOfBounds ha (by simp)
  | ldVMem x =>
    rcases checked_cases h with ⟨rfl, _⟩ | ⟨a, ha, rfl⟩
    · exact .loadedBlock _ _
    · exact effect_outOfBounds ha (by simp)
  | drw x y n =>
    rcases checked_cases h with ⟨rfl, _⟩ | ⟨a, ha, rfl⟩
    · exact .drew _ _ _ _ _
    · exact effect_outOfBounds ha (by simp)
  | ldVK x =>
    simp only [exec, execLdVK] at h
    cases hk : s.lowestKey <;> simp only [hk] at h <;> injection h with h <;> subst h
    · exact .waited x hk
    · exact .wroteV _ x _ (by simp)
  | jp n => injection h with h; subst h; exact .jumped n
  | jpV0 n => injection h with h; subst h; exact .jumpedV0 n
  | cls => injection h with h; subst h; exact .cleared
  | ldDTV x => injection h with h; subst h; exact .setDelay x
  | ldSTV x => injection h with h; subst h; exact .setSound x
  | ldI n => injection h with h; subst h; exact .wroteI _ _ (by simp)
  | addIV x | ldFV x => injection h with h; subst h; exact .wroteI _ _ (by simp)
  | seVB x kk | sneVB x kk => injection h with h; subst h; exact .skipped _ _ (by simp)
  | seVV x y | sneVV x y => injection h with h; subst h; exact .skipped _ _ (by simp)
  | skp x | sknp x => injection h with h; subst h; exact .skipped _ _ (by simp)
  | ldVB x kk | addVB x kk => injection h with h; subst h; exact .wroteV _ x _ (by simp)
  | ldVV x y | orVV x y | andVV x y | xorVV x y => injection h with h; subst h; exact .wroteV _ x _ (by simp)
  | ldVDT x => injection h with h; subst h; exact .wroteV _ x _ (by simp)
  | addVV x y | subVV x y | shr x y | subnVV x y | shl x y =>
    injection h with h; subst h; exact .wroteVFlag _ x _ _ (by simp)

end Sys2Proof.Machine
end

