-- ==== Sys2Proof/Laws/PerInstr.lean ====
section
/-! SUPPORT. Laws stated per instruction. Family RoundTrip: the word of a well-formed instruction decodes to it
(30_encoding.md R75, R76). -/

namespace Sys2Proof.Laws.RoundTrip

/-- Decoding the word of a well-formed instruction gives the instruction back. -/
def Statement (i : Instr) : Prop := i.wellFormed = true → decodeWord (encode i) = .instr i

theorem ret : Statement .ret := fun _ => by decide

theorem jp (nnn : Addr12) : Statement (.jp nnn) := fun _ => by
  rw [encode, decodeWord, fieldOp_formatN (by decide), fieldNNN_formatN (by decide)]
  rfl

theorem call (nnn : Addr12) : Statement (.call nnn) := fun _ => by
  rw [encode, decodeWord, fieldOp_formatN (by decide), fieldNNN_formatN (by decide)]
  rfl

theorem jpV0 (nnn : Addr12) : Statement (.jpV0 nnn) := fun _ => by
  rw [encode, decodeWord, fieldOp_formatN (by decide), fieldNNN_formatN (by decide)]
  rfl

theorem seVB (x : RegNum) (kk : Byte) : Statement (.seVB x kk) := fun _ => by
  rw [encode, decodeWord, fieldOp_formatXK (by decide) kk.isLt, fieldX_formatXK (by decide) kk.isLt,
    fieldKK_formatXK_byte (by decide)]
  rfl

theorem sneVB (x : RegNum) (kk : Byte) : Statement (.sneVB x kk) := fun _ => by
  rw [encode, decodeWord, fieldOp_formatXK (by decide) kk.isLt, fieldX_formatXK (by decide) kk.isLt,
    fieldKK_formatXK_byte (by decide)]
  rfl

theorem seVV (x y : RegNum) : Statement (.seVV x y) := fun _ => by
  rw [encode, decodeWord, fieldOp_formatXYN (by decide) (by decide), fieldN_formatXYN (by decide) (by decide),
    fieldX_formatXYN (by decide) (by decide), fieldY_formatXYN (by decide) (by decide)]
  rfl

theorem sneVV (x y : RegNum) : Statement (.sneVV x y) := fun _ => by
  rw [encode, decodeWord, fieldOp_formatXYN (by decide) (by decide), fieldN_formatXYN (by decide) (by decide),
    fieldX_formatXYN (by decide) (by decide), fieldY_formatXYN (by decide) (by decide)]
  rfl

theorem ldVB (x : RegNum) (kk : Byte) : Statement (.ldVB x kk) := fun _ => by
  rw [encode, decodeWord, fieldOp_formatXK (by decide) kk.isLt, fieldX_formatXK (by decide) kk.isLt,
    fieldKK_formatXK_byte (by decide)]
  rfl

theorem addVB (x : RegNum) (kk : Byte) : Statement (.addVB x kk) := fun _ => by
  rw [encode, decodeWord, fieldOp_formatXK (by decide) kk.isLt, fieldX_formatXK (by decide) kk.isLt,
    fieldKK_formatXK_byte (by decide)]
  rfl

theorem ldVV (x y : RegNum) : Statement (.ldVV x y) := fun _ => by
  rw [encode, decodeWord, fieldOp_formatXYN (by decide) (by decide), decodeOp8, fieldN_formatXYN (by decide) (by decide),
    fieldX_formatXYN (by decide) (by decide), fieldY_formatXYN (by decide) (by decide)]
  rfl

theorem orVV (x y : RegNum) : Statement (.orVV x y) := fun _ => by
  rw [encode, decodeWord, fieldOp_formatXYN (by decide) (by decide), decodeOp8, fieldN_formatXYN (by decide) (by decide),
    fieldX_formatXYN (by decide) (by decide), fieldY_formatXYN (by decide) (by decide)]
  rfl

theorem andVV (x y : RegNum) : Statement (.andVV x y) := fun _ => by
  rw [encode, decodeWord, fieldOp_formatXYN (by decide) (by decide), decodeOp8, fieldN_formatXYN (by decide) (by decide),
    fieldX_formatXYN (by decide) (by decide), fieldY_formatXYN (by decide) (by decide)]
  rfl

theorem xorVV (x y : RegNum) : Statement (.xorVV x y) := fun _ => by
  rw [encode, decodeWord, fieldOp_formatXYN (by decide) (by decide), decodeOp8, fieldN_formatXYN (by decide) (by decide),
    fieldX_formatXYN (by decide) (by decide), fieldY_formatXYN (by decide) (by decide)]
  rfl

theorem addVV (x y : RegNum) : Statement (.addVV x y) := fun _ => by
  rw [encode, decodeWord, fieldOp_formatXYN (by decide) (by decide), decodeOp8, fieldN_formatXYN (by decide) (by decide),
    fieldX_formatXYN (by decide) (by decide), fieldY_formatXYN (by decide) (by decide)]
  rfl

theorem subVV (x y : RegNum) : Statement (.subVV x y) := fun _ => by
  rw [encode, decodeWord, fieldOp_formatXYN (by decide) (by decide), decodeOp8, fieldN_formatXYN (by decide) (by decide),
    fieldX_formatXYN (by decide) (by decide), fieldY_formatXYN (by decide) (by decide)]
  rfl

theorem shr (x y : RegNum) : Statement (.shr x y) := fun _ => by
  rw [encode, decodeWord, fieldOp_formatXYN (by decide) (by decide), decodeOp8, fieldN_formatXYN (by decide) (by decide),
    fieldX_formatXYN (by decide) (by decide), fieldY_formatXYN (by decide) (by decide)]
  rfl

theorem subnVV (x y : RegNum) : Statement (.subnVV x y) := fun _ => by
  rw [encode, decodeWord, fieldOp_formatXYN (by decide) (by decide), decodeOp8, fieldN_formatXYN (by decide) (by decide),
    fieldX_formatXYN (by decide) (by decide), fieldY_formatXYN (by decide) (by decide)]
  rfl

theorem shl (x y : RegNum) : Statement (.shl x y) := fun _ => by
  rw [encode, decodeWord, fieldOp_formatXYN (by decide) (by decide), decodeOp8, fieldN_formatXYN (by decide) (by decide),
    fieldX_formatXYN (by decide) (by decide), fieldY_formatXYN (by decide) (by decide)]
  rfl

theorem rnd (x : RegNum) (kk : Byte) : Statement (.rnd x kk) := fun _ => by
  rw [encode, decodeWord, fieldOp_formatXK (by decide) kk.isLt, fieldX_formatXK (by decide) kk.isLt,
    fieldKK_formatXK_byte (by decide)]
  rfl

theorem ldI (nnn : Addr12) : Statement (.ldI nnn) := fun _ => by
  rw [encode, decodeWord, fieldOp_formatN (by decide), fieldNNN_formatN (by decide)]
  rfl

theorem addIV (x : RegNum) : Statement (.addIV x) := fun _ => by
  rw [encode, decodeWord, fieldOp_formatXK (by decide) (by decide), decodeOpF, fieldKK_formatXK (by decide) (by decide),
    fieldX_formatXK (by decide) (by decide)]
  rfl

theorem ldFV (x : RegNum) : Statement (.ldFV x) := fun _ => by
  rw [encode, decodeWord, fieldOp_formatXK (by decide) (by decide), decodeOpF, fieldKK_formatXK (by decide) (by decide),
    fieldX_formatXK (by decide) (by decide)]
  rfl

theorem ldBV (x : RegNum) : Statement (.ldBV x) := fun _ => by
  rw [encode, decodeWord, fieldOp_formatXK (by decide) (by decide), decodeOpF, fieldKK_formatXK (by decide) (by decide),
    fieldX_formatXK (by decide) (by decide)]
  rfl

theorem ldMemV (x : RegNum) : Statement (.ldMemV x) := fun _ => by
  rw [encode, decodeWord, fieldOp_formatXK (by decide) (by decide), decodeOpF, fieldKK_formatXK (by decide) (by decide),
    fieldX_formatXK (by decide) (by decide)]
  rfl

theorem ldVMem (x : RegNum) : Statement (.ldVMem x) := fun _ => by
  rw [encode, decodeWord, fieldOp_formatXK (by decide) (by decide), decodeOpF, fieldKK_formatXK (by decide) (by decide),
    fieldX_formatXK (by decide) (by decide)]
  rfl

theorem ldVDT (x : RegNum) : Statement (.ldVDT x) := fun _ => by
  rw [encode, decodeWord, fieldOp_formatXK (by decide) (by decide), decodeOpF, fieldKK_formatXK (by decide) (by decide),
    fieldX_formatXK (by decide) (by decide)]
  rfl

theorem ldDTV (x : RegNum) : Statement (.ldDTV x) := fun _ => by
  rw [encode, decodeWord, fieldOp_formatXK (by decide) (by decide), decodeOpF, fieldKK_formatXK (by decide) (by decide),
    fieldX_formatXK (by decide) (by decide)]
  rfl

theorem ldSTV (x : RegNum) : Statement (.ldSTV x) := fun _ => by
  rw [encode, decodeWord, fieldOp_formatXK (by decide) (by decide), decodeOpF, fieldKK_formatXK (by decide) (by decide),
    fieldX_formatXK (by decide) (by decide)]
  rfl

theorem skp (x : RegNum) : Statement (.skp x) := fun _ => by
  rw [encode, decodeWord, fieldOp_formatXK (by decide) (by decide), decodeOpE, fieldKK_formatXK (by decide) (by decide),
    fieldX_formatXK (by decide) (by decide)]
  rfl

theorem sknp (x : RegNum) : Statement (.sknp x) := fun _ => by
  rw [encode, decodeWord, fieldOp_formatXK (by decide) (by decide), decodeOpE, fieldKK_formatXK (by decide) (by decide),
    fieldX_formatXK (by decide) (by decide)]
  rfl

theorem ldVK (x : RegNum) : Statement (.ldVK x) := fun _ => by
  rw [encode, decodeWord, fieldOp_formatXK (by decide) (by decide), decodeOpF, fieldKK_formatXK (by decide) (by decide),
    fieldX_formatXK (by decide) (by decide)]
  rfl

theorem cls : Statement .cls := fun _ => by decide

theorem drw (x y : RegNum) (n : Nat) : Statement (.drw x y n) := fun h => by
  have hn : n < 16 := by simpa [Instr.wellFormed, rowCountFits] using h
  rw [encode, decodeWord, fieldOp_formatXYN (by decide) hn, fieldX_formatXYN (by decide) hn,
    fieldY_formatXYN (by decide) hn, fieldN_formatXYN (by decide) hn]
  rfl

end Sys2Proof.Laws.RoundTrip
end

