-- ==== Sys2Proof/Tests/Slice0.lean ====
section
/-! SUPPORT. The model's own tests. Words and expected values are those of spec/: the encodings of 30_encoding.md R76, the
examples of the instruction rules, and the vectors of 95_test_vectors.md (named in each comment). The second half shows, for
every statement with hypotheses, a concrete state and operands that meet them. -/

namespace Sys2Proof.Tests

open Sys2Proof.Machine

/-! ## WellFormed and the assembler's operand checks (R71, R90) -/

theorem test_wellFormed_refuses_sixteen_rows : Instr.wellFormed (.drw 1 2 16) = false := by decide
theorem test_wellFormed_admits_fifteen_rows : Instr.wellFormed (.drw 1 2 15) = true := by decide
theorem test_assemble_refuses_register_16 : AsmLine.assemble ⟨.LD, [.reg 16, .reg 0]⟩ = none := by decide
theorem test_assemble_refuses_byte_256 : AsmLine.assemble ⟨.LD, [.reg 0, .const 256]⟩ = none := by decide
theorem test_assemble_refuses_address_4096 : AsmLine.assemble ⟨.JP, [.const 4096]⟩ = none := by decide
theorem test_assemble_refuses_sixteen_rows : AsmLine.assemble ⟨.DRW, [.reg 0, .reg 1, .const 16]⟩ = none := by decide
theorem test_assemble_shr_without_second_register : AsmLine.assemble ⟨.SHR, [.reg 5]⟩ = some (.shr 5 0) := by decide

/-! ## Decoding: one word of every constructor, written out from R76 -/

theorem test_decode_control :
    decodeWord 0x00EE = .instr .ret ∧ decodeWord 0x1ABC = .instr (.jp 0xABC) ∧ decodeWord 0x2DEF = .instr (.call 0xDEF) ∧
    decodeWord 0xB123 = .instr (.jpV0 0x123) ∧ decodeWord 0x3A7F = .instr (.seVB 10 0x7F) ∧
    decodeWord 0x4B80 = .instr (.sneVB 11 0x80) ∧ decodeWord 0x5120 = .instr (.seVV 1 2) ∧
    decodeWord 0x9CD0 = .instr (.sneVV 12 13) := by decide

theorem test_decode_alu :
    decodeWord 0x6A7B = .instr (.ldVB 10 0x7B) ∧ decodeWord 0x70FF = .instr (.addVB 0 0xFF) ∧
    decodeWord 0x8120 = .instr (.ldVV 1 2) ∧ decodeWord 0x8341 = .instr (.orVV 3 4) ∧
    decodeWord 0x8562 = .instr (.andVV 5 6) ∧ decodeWord 0x8783 = .instr (.xorVV 7 8) ∧
    decodeWord 0x89A4 = .instr (.addVV 9 10) ∧ decodeWord 0x8BC5 = .instr (.subVV 11 12) ∧
    decodeWord 0x8126 = .instr (.shr 1 2) ∧ decodeWord 0x8DE7 = .instr (.subnVV 13 14) ∧
    decodeWord 0x812E = .instr (.shl 1 2) ∧ decodeWord 0xC30F = .instr (.rnd 3 0x0F) := by decide

theorem test_decode_memory_timers_keys :
    decodeWord 0xA300 = .instr (.ldI 0x300) ∧ decodeWord 0xF21E = .instr (.addIV 2) ∧
    decodeWord 0xF029 = .instr (.ldFV 0) ∧ decodeWord 0xFA33 = .instr (.ldBV 10) ∧
    decodeWord 0xF155 = .instr (.ldMemV 1) ∧ decodeWord 0xF265 = .instr (.ldVMem 2) ∧
    decodeWord 0xF307 = .instr (.ldVDT 3) ∧ decodeWord 0xF415 = .instr (.ldDTV 4) ∧
    decodeWord 0xF518 = .instr (.ldSTV 5) ∧ decodeWord 0xE69E = .instr (.skp 6) ∧
    decodeWord 0xE7A1 = .instr (.sknp 7) ∧ decodeWord 0xF80A = .instr (.ldVK 8) := by decide

theorem test_decode_display :
    decodeWord 0x00E0 = .instr .cls ∧ decodeWord 0xD12F = .instr (.drw 1 2 15) := by decide

/-- DEC-1, 4, 5, 6, 8, 10, 11, 13, 15, 16. -/
theorem test_decode_unknown :
    decodeWord 0x0000 = .unknownOpcode 0x0000 ∧ decodeWord 0x00E1 = .unknownOpcode 0x00E1 ∧
    decodeWord 0x00FF = .unknownOpcode 0x00FF ∧ decodeWord 0x0123 = .unknownOpcode 0x0123 ∧
    decodeWord 0x5121 = .unknownOpcode 0x5121 ∧ decodeWord 0x812F = .unknownOpcode 0x812F ∧
    decodeWord 0x9121 = .unknownOpcode 0x9121 ∧ decodeWord 0xE19F = .unknownOpcode 0xE19F ∧
    decodeWord 0xFF75 = .unknownOpcode 0xFF75 ∧ decodeWord 0xF100 = .unknownOpcode 0xF100 := by decide

theorem test_decode_bytes_big_endian : decode [0x12, 0x28, 0xFF] = (.instr (.jp 0x228), [0xFF]) := by decide
theorem test_decode_one_byte_is_truncated : decode [0x12] = (.truncated, [0x12]) := by decide
theorem test_decodeTableWord : decodeTableWord 16 0xD12F = some (.drw 1 2 15) ∧ decodeTableWord 16 0x8128 = none := by
  decide

/-! ## One step on a small state -/

/-- Whether an outcome is a next state of which something holds. -/
def nextAsks {α : Type} (o : Host.Outcome α Fault Refusal) (ask : α → Bool) : Bool :=
  match o with
  | .next t => ask t
  | .fault _ => false
  | .refused _ => false

/-- Whether an outcome is this fault. -/
def isFault {α : Type} (o : Host.Outcome α Fault Refusal) (f : Fault) : Bool :=
  match o with
  | .next _ => false
  | .fault g => g = f
  | .refused _ => false

/-- Run the word from a start state, and ask something of the next state. -/
def runs (w : Nat) (s : State) (ask : State → Bool) : Bool := nextAsks (step (s.withFetchWord 16 w)) ask

/-- The start state of 95_test_vectors.md: reset with the canonical font. -/
def start : State := State.reset

/-- Bytes placed in memory, for a test's setup. -/
def withBytes (a : Nat) (bs : List Byte) (s : State) : State := { s with mem := s.mem.writeBytes a bs }

/-- CT-6, L1-5. -/
theorem test_ret : runs 0x00EE { start with stack := (start.stack.set 0 0x204).set 1 0x3AA, sp := 2 }
    (fun t => t.pc = 0x3AA && t.sp = 1) ∧ runs 0x00EE start (fun t => t.fault = some .stackUnderflow && t.pc = 0x200) := by
  decide
/-- CT-2. -/
theorem test_jp : runs 0x1FFF start (fun t => t.pc = 0xFFF) := by decide
/-- CT-3, CT-4. -/
theorem test_call : runs 0x2300 start (fun t => t.sp = 1 && t.stack[0] = 0x202 && t.pc = 0x300) ∧
    runs 0x2300 { start with sp := 16 } (fun t => t.fault = some .stackOverflow && t.sp = 16) := by decide
/-- CT-8. -/
theorem test_jpV0 : runs 0xBFFE (start.setV 0 0x02) (fun t => t.pc = 0x1000) := by decide
/-- CT-9, CT-10. -/
theorem test_seVB : runs 0x3342 (start.setV 3 0x42) (fun t => t.pc = 0x204) ∧
    runs 0x3343 (start.setV 3 0x42) (fun t => t.pc = 0x202) := by decide
/-- CT-11, CT-12. -/
theorem test_sneVB : runs 0x4342 (start.setV 3 0x42) (fun t => t.pc = 0x202) ∧
    runs 0x4343 (start.setV 3 0x42) (fun t => t.pc = 0x204) := by decide
/-- CT-13 and R107's rule with different registers. -/
theorem test_seVV : runs 0x5330 start (fun t => t.pc = 0x204) ∧
    runs 0x5120 (start.setV 1 0x01) (fun t => t.pc = 0x202) := by decide
/-- CT-14, CT-15. -/
theorem test_sneVV : runs 0x9330 start (fun t => t.pc = 0x202) ∧
    runs 0x9120 (start.setV 1 0x01) (fun t => t.pc = 0x204) := by decide
/-- CT-16: a true skip at the last word. -/
theorem test_skip_at_last_word : runs 0x3000 { start with pc := 0xFFE } (fun t => t.pc = 0x1002) := by decide
/-- AL-1. -/
theorem test_ldVB : runs 0x6F12 start (fun t => t.readV 15 = 0x12 && t.pc = 0x202) := by decide
/-- AL-2, AL-3. -/
theorem test_addVB : runs 0x7001 ((start.setV 0 0xFF).setV 15 0x55) (fun t => t.readV 0 = 0 && t.readV 15 = 0x55) ∧
    runs 0x7F01 (start.setV 15 0xFF) (fun t => t.readV 15 = 0) := by decide
/-- AL-4. -/
theorem test_ldVV : runs 0x8120 (start.setV 2 0x33) (fun t => t.readV 1 = 0x33) := by decide
/-- AL-5. -/
theorem test_orVV : runs 0x8121 (((start.setV 1 0xF0).setV 2 0x0F).setV 15 0x55)
    (fun t => t.readV 1 = 0xFF && t.readV 15 = 0x55) := by decide
/-- AL-6. -/
theorem test_andVV : runs 0x8122 ((start.setV 1 0xF3).setV 2 0x3F) (fun t => t.readV 1 = 0x33) := by decide
/-- AL-7, AL-8. -/
theorem test_xorVV : runs 0x8123 ((start.setV 1 0xFF).setV 2 0x0F) (fun t => t.readV 1 = 0xF0) ∧
    runs 0x8113 (start.setV 1 0x5A) (fun t => t.readV 1 = 0) := by decide
/-- L1-1, AL-12 (flag last). -/
theorem test_addVV : runs 0x8124 ((start.setV 1 0xFF).setV 2 0x01) (fun t => t.readV 1 = 0 && t.readV 15 = 1) ∧
    runs 0x8F14 ((start.setV 15 0x10).setV 1 0x01) (fun t => t.readV 15 = 0) := by decide
/-- L1-2, AL-15 (no borrow at equality). -/
theorem test_subVV : runs 0x8125 ((start.setV 1 0x01).setV 2 0x02) (fun t => t.readV 1 = 0xFF && t.readV 15 = 0) ∧
    runs 0x8125 ((start.setV 1 0x03).setV 2 0x03) (fun t => t.readV 1 = 0 && t.readV 15 = 1) := by decide
/-- AL-17, AL-18 (y ignored). -/
theorem test_shr : runs 0x8106 (start.setV 1 0x05) (fun t => t.readV 1 = 0x02 && t.readV 15 = 1) ∧
    runs 0x8126 ((start.setV 1 0x04).setV 2 0xFF) (fun t => t.readV 1 = 0x02 && t.readV 15 = 0) := by decide
/-- AL-20, AL-21. -/
theorem test_subnVV : runs 0x8127 ((start.setV 1 0x02).setV 2 0x01) (fun t => t.readV 1 = 0xFF && t.readV 15 = 0) ∧
    runs 0x8127 ((start.setV 1 0x01).setV 2 0x02) (fun t => t.readV 1 = 0x01 && t.readV 15 = 1) := by decide
/-- AL-23, AL-25. -/
theorem test_shl : runs 0x810E (start.setV 1 0x81) (fun t => t.readV 1 = 0x02 && t.readV 15 = 1) ∧
    runs 0x8F0E (start.setV 15 0x80) (fun t => t.readV 15 = 1) := by decide
/-- AL-26, AL-29. -/
theorem test_rnd : runs 0xC30F (plugEntropy [.ok 0xA7] start) (fun t => t.readV 3 = 0x07 && t.entropyCount = 1) ∧
    runs 0xC3FF (plugEntropy [.fail] (start.setV 3 0x55))
      (fun t => t.fault = some .entropySourceFailure && t.readV 3 = 0x55 && t.pc = 0x200) := by decide
/-- MI-1. -/
theorem test_ldI : runs 0xAFFF start (fun t => t.i = 0xFFF && t.pc = 0x202) := by decide
/-- MI-2, MI-3. -/
theorem test_addIV : runs 0xF11E { start.setV 1 0x01 with i := 0xFFF } (fun t => t.i = 0x1000 && t.readV 15 = 0) ∧
    runs 0xF11E { start.setV 1 0x01 with i := 0xFFFF } (fun t => t.i = 0) := by decide
/-- MI-5, MI-6. -/
theorem test_ldFV : runs 0xF029 (start.setV 0 0x0F) (fun t => t.i = 0x4B) ∧
    runs 0xF029 (start.setV 0 0x1A) (fun t => t.i = 0x32) := by decide
/-- MI-8, MI-10. -/
theorem test_ldBV : runs 0xF033 { start.setV 0 0xFF with i := 0x300 }
      (fun t => t.readByte 0x300 = 2 && t.readByte 0x301 = 5 && t.readByte 0x302 = 5 && t.i = 0x300) ∧
    runs 0xF033 { start.setV 0 0xFF with i := 0xFFE }
      (fun t => t.fault = some (.outOfBounds 0x1000) && t.readByte 0xFFE = 0) := by decide
/-- MI-12, MI-13. -/
theorem test_ldMemV : runs 0xFF55 { (start.setV 15 0xEE).setV 0 0x01 with i := 0xFF0 }
      (fun t => t.readByte 0xFF0 = 0x01 && t.readByte 0xFF1 = 0 && t.readByte 0xFFF = 0xEE && t.i = 0xFF0) ∧
    runs 0xFF55 { start.setV 0 0x01 with i := 0xFF1 } (fun t => t.fault = some (.outOfBounds 0x1000)) := by decide
/-- MI-15 (the font), MI-16. -/
theorem test_ldVMem : runs 0xFF65 start (fun t => t.v.toList =
      [0xF0, 0x90, 0x90, 0x90, 0xF0, 0x20, 0x60, 0x20, 0x20, 0x70, 0xF0, 0x10, 0xF0, 0x80, 0xF0, 0xF0]) ∧
    runs 0xF165 { start with i := 0xFFF } (fun t => t.fault = some (.outOfBounds 0x1000)) := by decide
/-- TK-1. -/
theorem test_ldVDT : runs 0xF307 { start with dt := 0x1E } (fun t => t.readV 3 = 0x1E) := by decide
/-- TK-2. -/
theorem test_ldDTV : runs 0xF315 (start.setV 3 0x1E) (fun t => t.dt = 0x1E) := by decide
/-- TK-3. -/
theorem test_ldSTV : runs 0xF418 (start.setV 4 0x05) (fun t => t.st = 0x05 && readBeep t) := by decide
/-- TK-6, TK-10 (low nibble). -/
theorem test_skp : runs 0xE39E (setKey 11 true (start.setV 3 0x0B)) (fun t => t.pc = 0x204) ∧
    runs 0xE39E (setKey 11 true (start.setV 3 0x1B)) (fun t => t.pc = 0x204) := by decide
/-- TK-8, TK-9. -/
theorem test_sknp : runs 0xE3A1 (setKey 11 true (start.setV 3 0x0B)) (fun t => t.pc = 0x202) ∧
    runs 0xE3A1 (start.setV 3 0x0B) (fun t => t.pc = 0x204) := by decide
/-- TK-11, TK-12 (the lowest key). -/
theorem test_ldVK : runs 0xF30A start (fun t => t.pc = 0x200 && t.readV 3 = 0) ∧
    runs 0xF30A (setKey 7 true (setKey 3 true start)) (fun t => t.readV 3 = 3 && t.pc = 0x202) := by decide
/-- DS-1, on a display with a pixel set. -/
theorem test_cls : runs 0x00E0 (start.setDisp (start.disp.toggle 5 6)) (fun t => !t.disp.pixel 5 6 && t.pc = 0x202) := by
  decide
/-- DS-5: a row wraps from column 63 to column 0. -/
theorem test_drw_wraps : runs 0xD011 (withBytes 0x300 [0xC0] { (start.setV 0 63).setV 1 31 with i := 0x300 })
    (fun t => t.disp.pixel 63 31 && t.disp.pixel 0 31 && !t.disp.pixel 1 31 && t.readV 15 = 0) := by decide
/-- DS-6's second draw: pixel 3 cleared, pixel 4 set, VF = 1. -/
theorem test_drw_collides : runs 0xD011
    (withBytes 0x300 [0x18] { start.setDisp (start.disp.toggle 3 0) with i := 0x300 })
    (fun t => !t.disp.pixel 3 0 && t.disp.pixel 4 0 && t.readV 15 = 1) := by decide

/-- FL-1 to FL-3, and a tick while latched. -/
theorem test_faults :
    isFault (step { start with fault := some .stackOverflow }) .stackOverflow ∧
    runs 0x0000 start (fun t => t.fault = some (.unknownOpcode 0)) ∧
    nextAsks (step { start with pc := 0xFFF }) (fun t => t.fault = some (.outOfBounds 0xFFF)) ∧
    (tickTimers { start with dt := 5, fault := some .stackOverflow }).dt = 4 := by decide

/-- reset with the canonical font is State.reset. -/
theorem test_reset_canonical : hostReset canonicalFont start = start := by decide

/-- The codes of R202. -/
theorem test_fault_codes : [Fault.unknownOpcode 0, .stackOverflow, .stackUnderflow, .outOfBounds 0, .entropySourceFailure,
    .programTooLarge].map Fault.code = [1, 2, 3, 4, 5, 6] := by decide

/-- A cycle's effects: CLS redraws, and a beep is the level after the instruction (DS-1, TK-3). -/
theorem test_cycle_effects :
    nextAsks (runInstructionCycle (start.withFetchWord 16 0x00E0)) (fun r => r.2 = .ok ⟨true, false⟩) ∧
    nextAsks (runInstructionCycle ((start.setV 4 5).withFetchWord 16 0xF418)) (fun r => r.2 = .ok ⟨false, true⟩) := by
  decide

/-- A session of the host: reset, load program P4's first word, wait a cycle, press key B, and the wait ends (P4). -/
theorem test_session :
    nextAsks (runSession [.reset canonicalFont, .loadProgram [0xF3, 0x0A], .runInstructionCycle, .setKey 11 true,
      .runInstructionCycle] start) (fun r => r.1.readV 3 = 0x0B && r.1.pc = 0x202) := by decide

/-! ## Witnesses: every statement with hypotheses has a state and operands that meet them -/

/-- A running state that is not reset: V1 is set and PC has moved. -/
def sample : State := { start.setV 1 0x05 with pc := 0x202 }

theorem sample_meets_invariant : Inv sample :=
  ⟨wf_nil, by decide, by decide, fun f h => by cases h⟩

theorem witness_DecodeInvertsEncode : Instr.wellFormed (.drw 15 15 15) = true := by decide
theorem witness_EncodeInvertsDecode : ∃ i, decodeWord 0xDFFF = .instr i := ⟨.drw 15 15 15, by decide⟩
theorem witness_OpcodeRows : decodeWord 0x00EE = .instr .ret ∧ (0x00EE, 0xFFFF) ∈ opcodeRows ∧
    matchesRow 0x00EE (0x00EE, 0xFFFF) = true := by decide
theorem witness_Assembler : Instr.wellFormed (.drw 15 15 15) = true := by decide
theorem witness_Fetch_bounds : 0x0FFF ≤ ({ start with pc := 0x0FFF } : State).pc.toNat ∧
    ({ start with pc := 0x0FFE } : State).pc.toNat < 0x0FFF := by decide
theorem witness_StepRunsDecodedInstruction : sample.fault = none ∧ sample.pc.toNat < 0x0FFF ∧
    decode [(sample.withFetchWord 16 0x8124).readByte 0x202, (sample.withFetchWord 16 0x8124).readByte 0x203]
      = (.instr (.addVV 1 2), []) := by decide
theorem witness_FetchAndDecodeFaults :
    (({ start with pc := 0x0FFF } : State).fault = none ∧ 0x0FFF ≤ ({ start with pc := 0x0FFF } : State).pc.toNat) ∧
    (start.fault = none ∧ fetch start = .ok 0x0000 ∧ decodeWord 0x0000 = .unknownOpcode 0x0000) := by decide
theorem witness_LatchedFault : (start.latch .stackOverflow).fault = some .stackOverflow ∧ canonicalFont.length = 80 := by
  decide
theorem witness_CycleReturns_ok :
    nextAsks (step (start.withFetchWord 16 0x00E0)) (fun t => t.fault = none) := by decide
theorem witness_CycleReturns_err :
    nextAsks (step (start.withFetchWord 16 0x00EE)) (fun t => t.fault = some .stackUnderflow) ∧
    nextAsks (step { start with pc := 0x0FFF }) (fun t => t.fault = some (.outOfBounds 0x0FFF)) ∧
    nextAsks (step start) (fun t => t.fault = some (.unknownOpcode 0)) := by decide
theorem witness_CycleFaultsAreAtomic : ∃ t, step start = .next t ∧ t.fault = some (.unknownOpcode 0) := ⟨_, rfl, rfl⟩
theorem witness_CycleFaults_notEntropy : Fault.unknownOpcode 0 ≠ .entropySourceFailure := by decide
theorem witness_PlacedWord : Instr.wellFormed (.drw 0 1 15) = true := by decide
theorem witness_JumpSetsPc_edges : (0xFFF : Addr12) = 0xFFF ∧ start.pc.toNat = (0x200 : Addr12).toNat := by decide
theorem witness_CallPushes : ({ start with sp := 15 } : State).sp.val < 16 ∧ ({ start with sp := 16 } : State).sp.val = 16 := by
  decide
theorem witness_ReturnPops : 0 < ({ start with sp := 16 } : State).sp.val ∧ 0 < ({ start with sp := 1 } : State).sp.val ∧
    start.sp.val = 0 := by decide
theorem witness_ReturnUndoesCall : ({ start with sp := 15 } : State).sp.val < 16 := by decide
theorem witness_Skips_lastWord : ({ start with pc := 0xFFE } : State).pc = 0xFFE := by decide
theorem witness_KeySkips : (11 : RegNum).val = ((start.setV 3 0x1B).readV 3).toNat % 16 := by decide
theorem witness_flagWriters_notVF : (14 : RegNum) ≠ 15 := by decide
theorem witness_RandomByte : (plugEntropy [.ok 0xA7] start).nextEntropy = .ok 0xA7 ∧
    (plugEntropy [.fail] start).nextEntropy = .fail := by decide
theorem witness_OnlyRnd : nextAsks (step ((plugEntropy [.ok 0xA7] start).withFetchWord 16 0xC30F)) (fun t => t.entropyCount = 1) ∧
    nextAsks (step (start.withFetchWord 16 0x00E0)) (fun t => t.entropyCount = 0) := by decide
theorem witness_DecimalDigits : ({ start with i := 0xFFD } : State).i.toNat + 3 ≤ 0x1000 := by decide
theorem witness_RegisterBlock : ({ start with i := 0xFF0 } : State).i.toNat + (15 : RegNum).val + 1 ≤ 0x1000 := by decide
theorem witness_OutsideMemory :
    0x1000 < ({ start with i := 0xFFE } : State).i.toNat + 3 ∧
    0x1000 < ({ start with i := 0xFF1 } : State).i.toNat + ((15 : RegNum).val + 1) ∧
    0x1000 < ({ start with i := 0xFFF } : State).i.toNat + ((1 : RegNum).val + 1) ∧
    0x1000 < ({ start with i := 0xFFFF } : State).i.toNat + 1 := by decide
theorem witness_StoredBlock : ∃ u : State, u.mem = start.mem ∧ u.i = start.i ∧ u ≠ start := ⟨sample, by decide⟩
theorem witness_NextFetchSeesTheStore_edges :
    (let t : State := { start with pc := 0xFFC, i := 0xFFE }
     t.pc.toNat + 4 ≤ 0x1000 ∧ t.i.toNat + (1 : RegNum).val + 1 ≤ 0x1000) ∧
    (let t : State := { start with pc := 0xFFC, i := 0xFFD }
     t.pc.toNat + 4 ≤ 0x1000 ∧ t.i.toNat + 3 ≤ 0x1000) := by decide
theorem witness_steps : nextAsks (step (start.withFetchWord 16 0xF315)) (fun _ => true) ∧
    nextAsks (step (start.withFetchWord 16 0xF029)) (fun _ => true) := by decide
theorem witness_KeyWait : (∀ k : RegNum, start.key[k.val] = false) ∧ (setKey 15 true start).key[(15 : RegNum).val] = true ∧
    ∀ j : RegNum, j < 15 → (setKey 15 true start).key[j.val] = false := by decide
theorem witness_SpriteDraw : 15 < 16 ∧ ({ start with i := 0xFF1 } : State).i.toNat + 15 ≤ 0x1000 ∧ (0 : RegNum) ≠ 15 ∧
    (14 : RegNum) ≠ 15 := by decide
theorem witness_OnlyFlagWriters : nextAsks (step ((start.setV 1 0xFF).withFetchWord 16 0x8114)) (fun t => t.readV 15 ≠ 0) := by
  decide
theorem witness_StackIsPrivate : Instr.cls ≠ .ret ∧ ∀ nnn, Instr.cls ≠ .call nnn := by decide
theorem witness_KeysPrivate : ∀ x, Instr.cls ≠ .skp x ∧ Instr.cls ≠ .sknp x ∧ Instr.cls ≠ .ldVK x := by decide
theorem witness_DisplayPrivate : Instr.ret ≠ .cls ∧ ∀ x y n, Instr.ret ≠ .drw x y n := ⟨by decide, fun _ _ _ => nofun⟩
theorem witness_OddPc : start.pc.toNat % 2 = 0 ∧ nextAsks (exec (.jp 0x201) start) (fun t => t.pc.toNat % 2 = 1) ∧
    nextAsks (exec (.jpV0 0x200) (start.setV 0 1)) (fun t => t.pc.toNat % 2 = 1) ∧
    nextAsks (exec .ret { start with stack := start.stack.set 0 0x301, sp := 1 }) (fun t => t.pc.toNat % 2 = 1) := by decide
theorem witness_StepKeepsInvariant : Inv sample ∧ ∃ t, step sample = .next t := ⟨sample_meets_invariant, _, rfl⟩
theorem witness_TransactionsKeepInvariant : Inv sample ∧ ∃ t, transact .tickTimers sample = .next (t, .done) :=
  ⟨sample_meets_invariant, _, rfl⟩
theorem witness_Reset : canonicalFont.length = 80 ∧ ([] : List Byte).length ≠ 80 := by decide
theorem witness_ProgramLoad : (List.replicate 3584 (0 : Byte)).length ≤ 3584 ∧ 3584 < (List.replicate 3585 (0 : Byte)).length := by
  rw [List.length_replicate, List.length_replicate]
  decide
theorem witness_Boot : canonicalFont.length = 80 ∧ ([] : List Byte).length ≤ 3582 ∧ decodeWord (wordOfBytes 0x12 0x00) = .instr (.jp 0x200) := by decide
theorem witness_KeySetter : 15 < 16 ∧ 16 ≤ 16 := by decide

end Sys2Proof.Tests
end

section
namespace Sys2Proof.Machine

/-! ## The bytes of a fetched word (20_memory.md R56, 30_encoding.md) -/

@[simp] theorem highByte_wordOfBytes (hi lo : Byte) : (wordOfBytes hi lo).extractLsb' 8 8 = hi :=
  BitVec.extractLsb'_append_eq_left

@[simp] theorem lowByte_wordOfBytes (hi lo : Byte) : (wordOfBytes hi lo).extractLsb' 0 8 = lo :=
  BitVec.extractLsb'_append_eq_right

/-- Settles O7: the two sides of the fetch's one bounds check, and the two bytes of the word it puts together. -/
theorem fetchIsTwoBytesOrOutOfBounds : Obligations.FetchIsTwoBytesOrOutOfBounds := by
  intro s
  constructor
  · intro hpc
    exact fetch_eq_error (by omega)
  · intro hpc
    exact ⟨_, fetch_eq_ok (by omega), highByte_wordOfBytes _ _, lowByte_wordOfBytes _ _⟩

end Sys2Proof.Machine
end

section
namespace Sys2Proof

/-! ## A word is the format word of its own fields (30_encoding.md R71, R76) -/

theorem formatN_fields {w : Word} {op : Nat} (hop : fieldOp w = op) : formatN op (fieldNNN w) = w := by
  have := w.isLt
  rw [fieldOp_eq] at hop
  apply BitVec.eq_of_toNat_eq
  rw [formatN_toNat (by omega), fieldNNN_toNat]; omega

theorem formatXK_fields {w : Word} {op kk : Nat} (hop : fieldOp w = op) (hkk : (fieldKK w).toNat = kk) :
    formatXK op (fieldX w) kk = w := by
  have := w.isLt
  rw [fieldOp_eq] at hop
  rw [fieldKK_toNat] at hkk
  apply BitVec.eq_of_toNat_eq
  rw [formatXK_toNat (by omega) (by omega), fieldX_val]; omega

theorem formatXYN_fields {w : Word} {op n : Nat} (hop : fieldOp w = op) (hn : fieldN w = n) :
    formatXYN op (fieldX w) (fieldY w) n = w := by
  have := w.isLt
  rw [fieldOp_eq] at hop
  rw [fieldN_eq] at hn
  apply BitVec.eq_of_toNat_eq
  rw [formatXYN_toNat (by omega) (by omega), fieldX_val, fieldY_val]; omega

/-- The row count of `DRW` is read from a nibble. -/
theorem rowCountFits_fieldN (w : Word) : rowCountFits (fieldN w) = true := by
  simp only [rowCountFits, fieldN_eq, decide_eq_true_eq]; omega

/-! ## What each part of the decoder answers encodes to the word (30_encoding.md R73 to R75) -/

section
variable {w : Word} {i : Instr}

theorem encode_of_decodeOp0 (h : decodeOp0 w = .instr i) : encode i = w ∧ i.wellFormed = true := by
  unfold decodeOp0 at h
  split at h
  case isTrue hw => cases h; exact ⟨hw.symm, rfl⟩
  case isFalse =>
    split at h
    case isTrue hw => cases h; exact ⟨hw.symm, rfl⟩
    case isFalse => cases h

/-- Every row of `0x8` is an XYN word with the low nibble the decoder matched. -/
theorem encode_of_decodeOp8 (hop : fieldOp w = 0x8) (h : decodeOp8 w = .instr i) :
    encode i = w ∧ i.wellFormed = true := by
  unfold decodeOp8 at h
  split at h
  case h_10 => cases h
  all_goals
    next hn => cases h; exact ⟨formatXYN_fields hop hn, rfl⟩

/-- Both rows of `0xE` are XK words with the low byte the decoder matched. -/
theorem encode_of_decodeOpE (hop : fieldOp w = 0xE) (h : decodeOpE w = .instr i) :
    encode i = w ∧ i.wellFormed = true := by
  unfold decodeOpE at h
  split at h
  case h_3 => cases h
  all_goals
    next hkk => cases h; exact ⟨formatXK_fields hop hkk, rfl⟩

/-- Every row of `0xF` is an XK word with the low byte the decoder matched. -/
theorem encode_of_decodeOpF (hop : fieldOp w = 0xF) (h : decodeOpF w = .instr i) :
    encode i = w ∧ i.wellFormed = true := by
  unfold decodeOpF at h
  split at h
  case h_10 => cases h
  all_goals
    next hkk => cases h; exact ⟨formatXK_fields hop hkk, rfl⟩

end

/-- Settles O4: by the high nibble; each family's word is its format's word of the fields the decoder read. -/
theorem encodeInvertsDecode : Obligations.EncodeInvertsDecode := by
  intro w i h
  unfold decodeWord at h
  split at h
  case h_1 => exact encode_of_decodeOp0 h
  case h_9 hop => exact encode_of_decodeOp8 hop h
  case h_15 hop => exact encode_of_decodeOpE hop h
  case h_16 hop => exact encode_of_decodeOpF hop h
  case h_6 hop | h_10 hop =>
    split at h
    case isTrue hn => cases h; exact ⟨formatXYN_fields hop hn, rfl⟩
    case isFalse => cases h
  case h_2 hop | h_3 hop | h_11 hop | h_12 hop => cases h; exact ⟨formatN_fields hop, rfl⟩
  case h_4 hop | h_5 hop | h_7 hop | h_8 hop | h_13 hop => cases h; exact ⟨formatXK_fields hop rfl, rfl⟩
  case h_14 hop => cases h; exact ⟨formatXYN_fields hop rfl, rowCountFits_fieldN w⟩
  case h_17 => cases h

end Sys2Proof
end

section
namespace Sys2Proof.Machine

/-! ## Moving the program counter (40_control.md R102, R105 to R108) -/

/-- The program counter is no part of a frame. -/
theorem frameExcept_setPc (s : State) (w : Word) : FrameExcept [] [] [] s (s.setPc w) where
  registers r _ := readV_setPc s w r
  memory a _ := readByte_setPc s w a
  index _ := setPc_i s w
  stack _ := ⟨setPc_stack s w, setPc_sp s w⟩
  delayTimer _ := setPc_dt s w
  soundTimer _ := setPc_st s w
  display _ := setPc_disp s w
  fault _ := setPc_fault s w
  entropy _ := ⟨setPc_entropyPending s w, setPc_entropyCount s w⟩
  keys := setPc_key s w

theorem frameExcept_skipIf (s : State) (c : Bool) : FrameExcept [] [] [] s (s.skipIf c) :=
  frameExcept_setPc s _

@[simp] theorem setPc_self (s : State) : s.setPc s.pc = s := rfl

@[simp] theorem addrTarget_toNat (nnn : Addr12) : (addrTarget nnn).toNat = nnn.toNat :=
  BitVec.toNat_setWidth_of_le (by decide)

/-- A skip from the last word of memory leaves it on either side, and the next fetch faults (20_memory.md R56). -/
theorem fetch_skipIf_lastWord {s : State} (h : s.pc = 0xFFE) (c : Bool) :
    fetch (s.skipIf c) = .error (.outOfBounds (if c then 0x1002 else 0x1000)) := by
  have hpc : (s.skipIf c).pc.toNat = if c then 0x1002 else 0x1000 := by
    rw [skipIf_pc, h]; cases c <;> rfl
  rw [← hpc]
  exact fetch_eq_error (by rw [hpc]; cases c <;> decide)

/-- Settles O15: the jump is one `setPc`, and its target has the value of nnn, so 0xFFF lies at the fetch's bound and a jump
to its own address sets PC to itself. -/
theorem jumpSetsPc : Obligations.JumpSetsPc := by
  intro nnn s
  refine ⟨s.setPc (addrTarget nnn), rfl, addrTarget_toNat nnn, frameExcept_setPc s _, ?_, ?_⟩
  · rintro rfl
    exact fetch_eq_error (by rw [setPc_pc, addrTarget_toNat]; decide)
  · intro hself
    have htarget : addrTarget nnn = s.pc := BitVec.eq_of_toNat_eq (by rw [addrTarget_toNat, hself])
    rw [htarget, setPc_self]

/-- Settles O20: each skip is one `skipIf` on its condition; the SNE forms test the negated condition. -/
theorem registerSkipsMoveOnlyPc : Obligations.RegisterSkipsMoveOnlyPc := by
  intro x y kk s
  refine ⟨?seVB, ?sneVB, ?seVV, ?sneVV⟩
  case seVB =>
    exact ⟨s.skipIf (s.readV x = kk), rfl, by simp, frameExcept_skipIf s _,
      fun hpc => by simp [fetch_skipIf_lastWord hpc]⟩
  case sneVB =>
    exact ⟨s.skipIf (s.readV x ≠ kk), rfl, by simp, frameExcept_skipIf s _,
      fun hpc => by simp [fetch_skipIf_lastWord hpc]⟩
  case seVV => exact ⟨s.skipIf (s.readV x = s.readV y), rfl, by simp, frameExcept_skipIf s _⟩
  case sneVV => exact ⟨s.skipIf (s.readV x ≠ s.readV y), rfl, by simp, frameExcept_skipIf s _⟩

end Sys2Proof.Machine
end

section
namespace Sys2Proof.Machine

/-! ## Writing one register and going on (41_alu.md R121, R123) -/

/-- The one register written is the frame's exception, VF being a register like any other; PC is no part of a frame. -/
theorem frameExcept_setV_advance (s : State) (x : RegNum) (b : Byte) :
    FrameExcept [x] [] [] s (s.setV x b).advance where
  registers r hr := by
    have hrx : r ≠ x := fun h => hr (List.mem_singleton.mpr h)
    rw [readV_advance, readV_setV, if_neg hrx]
  memory a _ := by rw [readByte_advance, readByte_setV]
  index _ := by rw [advance_i, setV_i]
  stack _ := ⟨by rw [advance_stack, setV_stack], by rw [advance_sp, setV_sp]⟩
  delayTimer _ := by rw [advance_dt, setV_dt]
  soundTimer _ := by rw [advance_st, setV_st]
  display _ := by rw [advance_disp, setV_disp]
  fault _ := by rw [advance_fault, setV_fault]
  entropy _ := ⟨by rw [advance_entropyPending, setV_entropyPending], by rw [advance_entropyCount, setV_entropyCount]⟩
  keys := by rw [advance_key, setV_key]

/-- What the instructions that answer `(s.setV x b).advance` do: the byte is in Vx, PC is past the instruction, and the rest
is as it was. -/
theorem setV_advance_spec (s : State) (x : RegNum) (b : Byte) :
    (s.setV x b).advance.readV x = b ∧ (s.setV x b).advance.pc = s.pc + 2 ∧
      FrameExcept [x] [] [] s (s.setV x b).advance :=
  ⟨by rw [readV_advance, readV_setV, if_pos rfl], by rw [advance_pc, setV_pc], frameExcept_setV_advance s x b⟩

/-- Settles O22: each load is one register write, of kk or of the old Vy, and the advance. -/
theorem registerLoadsWriteVx : Obligations.RegisterLoadsWriteVx := by
  intro x y kk s
  constructor
  · exact ⟨(s.setV x kk).advance, rfl, setV_advance_spec s x kk⟩
  · exact ⟨(s.setV x (s.readV y)).advance, rfl, setV_advance_spec s x (s.readV y)⟩

end Sys2Proof.Machine
end

section
namespace Sys2Proof.Machine

/-! ## Writing the index register and going on (42_memory_index.md R141) -/

/-- I is the frame's exception; PC is no part of a frame. -/
theorem frameExcept_setI_advance (s : State) (w : Word) : FrameExcept [] [] [.index] s (s.setI w).advance where
  registers r _ := by rw [readV_advance, readV_setI]
  memory a _ := by rw [readByte_advance, readByte_setI]
  index hi := absurd (List.mem_singleton_self _) hi
  stack _ := ⟨by rw [advance_stack, setI_stack], by rw [advance_sp, setI_sp]⟩
  delayTimer _ := by rw [advance_dt, setI_dt]
  soundTimer _ := by rw [advance_st, setI_st]
  display _ := by rw [advance_disp, setI_disp]
  fault _ := by rw [advance_fault, setI_fault]
  entropy _ := ⟨by rw [advance_entropyPending, setI_entropyPending], by rw [advance_entropyCount, setI_entropyCount]⟩
  keys := by rw [advance_key, setI_key]

/-- What the instructions that answer `(s.setI w).advance` do: the word is in I, PC is past the instruction, and the rest is
as it was. -/
theorem setI_advance_spec (s : State) (w : Word) :
    (s.setI w).advance.i = w ∧ (s.setI w).advance.pc = s.pc + 2 ∧ FrameExcept [] [] [.index] s (s.setI w).advance :=
  ⟨by rw [advance_i, setI_i], by rw [advance_pc, setI_pc], frameExcept_setI_advance s w⟩

/-- Settles O30: the load is one write of I and the advance, and the word written has the value of nnn. -/
theorem loadIndexSetsI : Obligations.LoadIndexSetsI := by
  intro nnn s
  obtain ⟨hi, hpc, hframe⟩ := setI_advance_spec s (addrTarget nnn)
  exact ⟨(s.setI (addrTarget nnn)).advance, rfl, by rw [hi, addrTarget_toNat], hpc, hframe⟩

end Sys2Proof.Machine
end

section
namespace Sys2Proof.Machine

/-! ## The tick of the timers (60_exceptions.md R224) -/

/-- A timer at 0 stays there, which is what subtraction of natural numbers does. -/
theorem tickTimer_toNat (t : Byte) : (tickTimer t).toNat = t.toNat - 1 := by
  unfold tickTimer
  split
  case isTrue hne => exact BitVec.toNat_sub_of_le (by bv_omega)
  case isFalse hzero => rw [not_not.mp hzero]; rfl

@[simp] theorem readV_tickTimers (s : State) (q : RegNum) : (tickTimers s).readV q = s.readV q := rfl

@[simp] theorem readByte_tickTimers (s : State) (a : Nat) : (tickTimers s).readByte a = s.readByte a := rfl

/-- The two timers are the frame's exceptions; the latch is in the frame, whatever it holds. -/
theorem frameExcept_tickTimers (s : State) : FrameExcept [] [] [.delayTimer, .soundTimer] s (tickTimers s) where
  registers r _ := readV_tickTimers s r
  memory a _ := readByte_tickTimers s a
  index _ := tickTimers_i s
  stack _ := ⟨tickTimers_stack s, tickTimers_sp s⟩
  delayTimer hdt := absurd (by simp) hdt
  soundTimer hst := absurd (by simp) hst
  display _ := tickTimers_disp s
  fault _ := tickTimers_fault s
  entropy _ := ⟨tickTimers_entropyPending s, tickTimers_entropyCount s⟩
  keys := tickTimers_key s

/-- Settles O40: the transaction reads no latch, and each timer's tick is one truncated subtraction. -/
theorem tickDecrementsBothTimers : Obligations.TickDecrementsBothTimers := by
  intro s
  refine ⟨tickTimers s, rfl, ?dt, ?st, tickTimers_pc s, frameExcept_tickTimers s⟩
  case dt => rw [tickTimers_dt, tickTimer_toNat]
  case st => rw [tickTimers_st, tickTimer_toNat]

end Sys2Proof.Machine
end

section
namespace Sys2Proof

/-! ## Decoding what the encoder wrote (30_encoding.md R70, R75, R76) -/

/-- The word of a well-formed instruction decodes to it: the family RoundTrip, gathered. -/
theorem decodeWord_encode {i : Instr} (h : i.wellFormed = true) : decodeWord (encode i) = .instr i := by
  cases i with
  | ret => exact Laws.RoundTrip.ret h
  | jp nnn => exact Laws.RoundTrip.jp nnn h
  | call nnn => exact Laws.RoundTrip.call nnn h
  | jpV0 nnn => exact Laws.RoundTrip.jpV0 nnn h
  | seVB x kk => exact Laws.RoundTrip.seVB x kk h
  | sneVB x kk => exact Laws.RoundTrip.sneVB x kk h
  | seVV x y => exact Laws.RoundTrip.seVV x y h
  | sneVV x y => exact Laws.RoundTrip.sneVV x y h
  | ldVB x kk => exact Laws.RoundTrip.ldVB x kk h
  | addVB x kk => exact Laws.RoundTrip.addVB x kk h
  | ldVV x y => exact Laws.RoundTrip.ldVV x y h
  | orVV x y => exact Laws.RoundTrip.orVV x y h
  | andVV x y => exact Laws.RoundTrip.andVV x y h
  | xorVV x y => exact Laws.RoundTrip.xorVV x y h
  | addVV x y => exact Laws.RoundTrip.addVV x y h
  | subVV x y => exact Laws.RoundTrip.subVV x y h
  | shr x y => exact Laws.RoundTrip.shr x y h
  | subnVV x y => exact Laws.RoundTrip.subnVV x y h
  | shl x y => exact Laws.RoundTrip.shl x y h
  | rnd x kk => exact Laws.RoundTrip.rnd x kk h
  | ldI nnn => exact Laws.RoundTrip.ldI nnn h
  | addIV x => exact Laws.RoundTrip.addIV x h
  | ldFV x => exact Laws.RoundTrip.ldFV x h
  | ldBV x => exact Laws.RoundTrip.ldBV x h
  | ldMemV x => exact Laws.RoundTrip.ldMemV x h
  | ldVMem x => exact Laws.RoundTrip.ldVMem x h
  | ldVDT x => exact Laws.RoundTrip.ldVDT x h
  | ldDTV x => exact Laws.RoundTrip.ldDTV x h
  | ldSTV x => exact Laws.RoundTrip.ldSTV x h
  | skp x => exact Laws.RoundTrip.skp x h
  | sknp x => exact Laws.RoundTrip.sknp x h
  | ldVK x => exact Laws.RoundTrip.ldVK x h
  | cls => exact Laws.RoundTrip.cls h
  | drw x y n => exact Laws.RoundTrip.drw x y n h

/-- The two bytes of a word at the head of a stream are decoded as that word. -/
theorem decode_bytesOfWord_append (w : Word) (rest : List Byte) :
    decode (bytesOfWord w ++ rest) = (decodeWord w, rest) := by
  rw [bytesOfWord, List.cons_append, List.cons_append, List.nil_append, decode, wordOfBytes_bytesOfWord]

/-- Settles O3: the stream's two bytes make the encoded word again, and that word decodes to its instruction. -/
theorem decodeInvertsEncode : Obligations.DecodeInvertsEncode := by
  intro i rest hwf
  rw [decode_bytesOfWord_append, decodeWord_encode hwf]

/-- Settles O1: the decoder, run on the twenty fixed words. -/
theorem decodesWordsOfEveryFamily : Obligations.DecodesWordsOfEveryFamily := by
  unfold Obligations.DecodesWordsOfEveryFamily
  decide

/-! ## The words each part of the decoder rejects (30_encoding.md R74) -/

section
variable (w : Word)

theorem decodeOp0_eq_unknown_iff : decodeOp0 w = .unknownOpcode w ↔ w ≠ 0x00E0 ∧ w ≠ 0x00EE := by
  unfold decodeOp0
  split
  case isTrue hcls => simp [hcls]
  case isFalse hcls =>
    split
    case isTrue hret => simp [hret]
    case isFalse hret => exact iff_of_true rfl ⟨hcls, hret⟩

theorem decodeOp8_eq_unknown_iff :
    decodeOp8 w = .unknownOpcode w ↔ fieldN w ∈ [0x8, 0x9, 0xA, 0xB, 0xC, 0xD, 0xF] := by
  have hlt : fieldN w < 16 := by rw [fieldN_eq]; omega
  unfold decodeOp8
  split
  case h_10 => simp; grind
  all_goals
    next hn => simp [hn]

theorem decodeOpE_eq_unknown_iff : decodeOpE w = .unknownOpcode w ↔ (fieldKK w).toNat ∉ [0x9E, 0xA1] := by
  unfold decodeOpE
  split
  case h_3 => grind
  all_goals
    next hkk => simp [hkk]

theorem decodeOpF_eq_unknown_iff : decodeOpF w = .unknownOpcode w ↔
    (fieldKK w).toNat ∉ [0x07, 0x0A, 0x15, 0x18, 0x1E, 0x29, 0x33, 0x55, 0x65] := by
  unfold decodeOpF
  split
  case h_10 => simp; grind
  all_goals
    next hkk => simp [hkk]

end

/-- Settles O2: by the high nibble; the four families with unknown words have a lemma each, `0x5` and `0x9` test the low
nibble, and every other family has none. -/
theorem unknownWordsAreThoseOfTheTable : Obligations.UnknownWordsAreThoseOfTheTable := by
  intro w
  change _ ↔ (fieldOp w = 0x0 ∧ _) ∨ (fieldOp w = 0x5 ∧ fieldN w ≠ 0) ∨ (fieldOp w = 0x8 ∧ fieldN w ∈ _) ∨
    (fieldOp w = 0x9 ∧ fieldN w ≠ 0) ∨ (fieldOp w = 0xE ∧ (fieldKK w).toNat ∉ _) ∨
    (fieldOp w = 0xF ∧ (fieldKK w).toNat ∉ _)
  have hlt : fieldOp w < 16 := (w.extractLsb' 12 4).isLt
  unfold decodeWord
  split
  case h_1 hop => rw [decodeOp0_eq_unknown_iff]; simp [hop]
  case h_9 hop => rw [decodeOp8_eq_unknown_iff]; simp [hop]
  case h_15 hop => rw [decodeOpE_eq_unknown_iff]; simp [hop]
  case h_16 hop => rw [decodeOpF_eq_unknown_iff]; simp [hop]
  case h_6 hop | h_10 hop =>
    split
    case isTrue hn => simp [hop, hn]
    case isFalse hn => simp [hop, hn]
  case h_17 => grind
  all_goals
    next hop => simp [hop]

/-! ## The mask-and-match rows (30_encoding.md R77) -/

/-! A mask keeps whole fields of the word and clears the rest. -/

theorem and_F000 (w : Word) : w &&& 0xF000 = (w.extractLsb' 12 4 ++ 0#12 : Word) := by
  apply BitVec.eq_of_getLsbD_eq
  intro b hb
  simp only [BitVec.getLsbD_and, BitVec.getLsbD_append, BitVec.getLsbD_extractLsb']
  interval_cases b <;> simp

theorem and_F00F (w : Word) : w &&& 0xF00F = (w.extractLsb' 12 4 ++ (0#8 ++ w.extractLsb' 0 4) : Word) := by
  apply BitVec.eq_of_getLsbD_eq
  intro b hb
  simp only [BitVec.getLsbD_and, BitVec.getLsbD_append, BitVec.getLsbD_extractLsb']
  interval_cases b <;> simp

theorem and_F0FF (w : Word) : w &&& 0xF0FF = (w.extractLsb' 12 4 ++ (0#4 ++ w.extractLsb' 0 8) : Word) := by
  apply BitVec.eq_of_getLsbD_eq
  intro b hb
  simp only [BitVec.getLsbD_and, BitVec.getLsbD_append, BitVec.getLsbD_extractLsb']
  interval_cases b <;> simp

section
variable {w v : Word}

theorem matchesRow_iff {row : Word × Word} : matchesRow w row = true ↔ w &&& row.2 = row.1 := by
  simp [matchesRow]

theorem fieldOp_of_and {m : Word} (h : w &&& m = v) (hm : m.extractLsb' 12 4 = BitVec.allOnes 4) :
    fieldOp w = fieldOp v := by
  rw [← h, fieldOp, fieldOp, BitVec.extractLsb'_and, hm, BitVec.and_allOnes]

/-- A row of a form with only `op` fixed matches the words of its high nibble. -/
theorem matchesRow_op_iff (hv : v &&& 0xF000 = v) : matchesRow w (v, 0xF000) = true ↔ fieldOp w = fieldOp v := by
  rw [matchesRow_iff]
  dsimp only
  refine ⟨fun h => fieldOp_of_and h (by decide), fun hop => ?_⟩
  have hop' : w.extractLsb' 12 4 = v.extractLsb' 12 4 := BitVec.eq_of_toNat_eq hop
  rw [and_F000, hop', ← and_F000, hv]

/-- A row of a form with `op` and `n` fixed matches the words of its high and low nibble. -/
theorem matchesRow_opN_iff (hv : v &&& 0xF00F = v) :
    matchesRow w (v, 0xF00F) = true ↔ fieldOp w = fieldOp v ∧ fieldN w = fieldN v := by
  rw [matchesRow_iff]
  dsimp only
  refine ⟨fun h => ⟨fieldOp_of_and h (by decide), ?_⟩, fun ⟨hop, hn⟩ => ?_⟩
  · have hm : (0xF00F : Word).extractLsb' 0 4 = BitVec.allOnes 4 := by decide
    rw [← h, fieldN, fieldN, BitVec.extractLsb'_and, hm, BitVec.and_allOnes]
  · have hop' : w.extractLsb' 12 4 = v.extractLsb' 12 4 := BitVec.eq_of_toNat_eq hop
    have hn' : w.extractLsb' 0 4 = v.extractLsb' 0 4 := BitVec.eq_of_toNat_eq hn
    rw [and_F00F, hop', hn', ← and_F00F, hv]

/-- A row of a form with `op` and the low byte fixed matches the words of its high nibble and low byte. -/
theorem matchesRow_opKK_iff (hv : v &&& 0xF0FF = v) :
    matchesRow w (v, 0xF0FF) = true ↔ fieldOp w = fieldOp v ∧ (fieldKK w).toNat = (fieldKK v).toNat := by
  rw [matchesRow_iff]
  dsimp only
  refine ⟨fun h => ⟨fieldOp_of_and h (by decide), ?_⟩, fun ⟨hop, hkk⟩ => ?_⟩
  · have hm : (0xF0FF : Word).extractLsb' 0 8 = BitVec.allOnes 8 := by decide
    rw [← h, fieldKK, fieldKK, BitVec.extractLsb'_and, hm, BitVec.and_allOnes]
  · have hop' : w.extractLsb' 12 4 = v.extractLsb' 12 4 := BitVec.eq_of_toNat_eq hop
    have hkk' : w.extractLsb' 0 8 = v.extractLsb' 0 8 := BitVec.eq_of_toNat_eq hkk
    rw [and_F0FF, hop', hkk', ← and_F0FF, hv]

/-- A row with every bit fixed matches its own word. -/
theorem matchesRow_word_iff : matchesRow w (v, 0xFFFF) = true ↔ w = v := by
  rw [matchesRow_iff, show (0xFFFF : Word) = BitVec.allOnes 16 from rfl, BitVec.and_allOnes]

/-- The row of an instruction is in the table. -/
theorem row_mem_opcodeRows (i : Instr) : i.row ∈ opcodeRows := by
  cases i <;> simp [Instr.row, opcodeRows]

/-- The encoding of a well-formed instruction matches the instruction's row. -/
theorem matchesRow_encode {i : Instr} (hwf : i.wellFormed = true) : matchesRow (encode i) i.row = true := by
  cases i with
  | ret | cls => exact matchesRow_word_iff.2 rfl
  | jp nnn | call nnn | jpV0 nnn | ldI nnn =>
    exact (matchesRow_op_iff (by decide)).2 (fieldOp_formatN (by decide) nnn)
  | seVB x kk | sneVB x kk | ldVB x kk | addVB x kk | rnd x kk =>
    exact (matchesRow_op_iff (by decide)).2 (fieldOp_formatXK (by decide) kk.isLt x)
  | seVV x y | sneVV x y | ldVV x y | orVV x y | andVV x y | xorVV x y | addVV x y | subVV x y | shr x y | subnVV x y
  | shl x y =>
    exact (matchesRow_opN_iff (by decide)).2
      ⟨fieldOp_formatXYN (by decide) (by decide) x y, fieldN_formatXYN (by decide) (by decide) x y⟩
  | addIV x | ldFV x | ldBV x | ldMemV x | ldVMem x | ldVDT x | ldDTV x | ldSTV x | skp x | sknp x | ldVK x =>
    exact (matchesRow_opKK_iff (by decide)).2
      ⟨fieldOp_formatXK (by decide) (by decide) x, fieldKK_formatXK (by decide) (by decide) x⟩
  | drw x y n =>
    have hn : n < 16 := by simpa [Instr.wellFormed, rowCountFits] using hwf
    exact (matchesRow_op_iff (by decide)).2 (fieldOp_formatXYN (by decide) hn x y)

/-- The rows of the table by their mask: which fields of the word a row fixes. -/
theorem opcodeRows_by_mask : ∀ row ∈ opcodeRows,
    (row.1 ∈ [(0x00EE : Word), 0x00E0] ∧ row.2 = 0xFFFF) ∨
    (row.1 ∈ [(0x1000 : Word), 0x2000, 0xB000, 0x3000, 0x4000, 0x6000, 0x7000, 0xC000, 0xA000, 0xD000] ∧
      row.2 = 0xF000) ∨
    (row.1 ∈ [(0x5000 : Word), 0x9000, 0x8000, 0x8001, 0x8002, 0x8003, 0x8004, 0x8005, 0x8006, 0x8007, 0x800E] ∧
      row.2 = 0xF00F) ∨
    (row.1 ∈ [(0xF01E : Word), 0xF029, 0xF033, 0xF055, 0xF065, 0xF007, 0xF015, 0xF018, 0xE09E, 0xE0A1, 0xF00A] ∧
      row.2 = 0xF0FF) := by
  simp [opcodeRows]

/-- A word that matches a row of the table decodes to an instruction of that row: the fields the row fixes are those the
decoder tests. -/
theorem decodeWord_of_matchesRow {row : Word × Word} (hrow : row ∈ opcodeRows) (h : matchesRow w row = true) :
    ∃ i, decodeWord w = .instr i ∧ i.row = row := by
  have hmask := opcodeRows_by_mask row hrow
  obtain ⟨v, m⟩ := row
  simp only [List.mem_cons, List.not_mem_nil, or_false] at hmask
  rcases hmask with ⟨hv, rfl⟩ | ⟨hv, rfl⟩ | ⟨hv, rfl⟩ | ⟨hv, rfl⟩
  · rw [matchesRow_word_iff] at h
    subst h
    rcases hv with rfl | rfl <;> exact ⟨_, rfl, rfl⟩
  · rcases hv with rfl | rfl | rfl | rfl | rfl | rfl | rfl | rfl | rfl | rfl
    all_goals
      have hop := (matchesRow_op_iff (by decide)).1 h
      rw [decodeWord, hop]
      exact ⟨_, rfl, rfl⟩
  · rcases hv with rfl | rfl | rfl | rfl | rfl | rfl | rfl | rfl | rfl | rfl | rfl
    all_goals
      obtain ⟨hop, hn⟩ := (matchesRow_opN_iff (by decide)).1 h
      rw [decodeWord, hop, decodeOp8, hn]
      exact ⟨_, rfl, rfl⟩
  · rcases hv with rfl | rfl | rfl | rfl | rfl | rfl | rfl | rfl | rfl | rfl | rfl
    all_goals
      obtain ⟨hop, hkk⟩ := (matchesRow_opKK_iff (by decide)).1 h
      rw [decodeWord, hop, decodeOpE, decodeOpF, hkk]
      exact ⟨_, rfl, rfl⟩

end

/-- Settles O5: a decoded word is the encoding of its instruction, so it matches that instruction's row; a word that matches a
row decodes to an instruction of this very row, so there is no second row for it to match. -/
theorem opcodeRowsAreDisjointAndComplete : Obligations.OpcodeRowsAreDisjointAndComplete := by
  intro w
  refine ⟨⟨?complete, ?covered⟩, ?unique⟩
  case complete =>
    rintro ⟨i, hi⟩
    obtain ⟨rfl, hwf⟩ := encodeInvertsDecode w i hi
    exact ⟨i.row, row_mem_opcodeRows i, matchesRow_encode hwf⟩
  case covered =>
    rintro ⟨row, hrow, h⟩
    obtain ⟨i, hi, -⟩ := decodeWord_of_matchesRow hrow h
    exact ⟨i, hi⟩
  case unique =>
    intro i hi row hrow h
    obtain ⟨j, hj, rfl⟩ := decodeWord_of_matchesRow hrow h
    rw [hi] at hj
    cases hj
    rfl

/-! ## The assembler (30_encoding.md R90) -/

@[simp] theorem asmReg_val (x : RegNum) : asmReg x.val = some x := dif_pos x.isLt

@[simp] theorem asmByte_toNat (kk : Byte) : asmByte kk.toNat = some kk := by
  rw [asmByte, if_pos (by simpa [byteFits] using kk.isLt), BitVec.ofNat_toNat, BitVec.setWidth_eq]

@[simp] theorem asmAddr_toNat (nnn : Addr12) : asmAddr nnn.toNat = some nnn := by
  rw [asmAddr, if_pos (by simpa [addrFits] using nnn.isLt), BitVec.ofNat_toNat, BitVec.setWidth_eq]

/-- Settles O6: by the instruction; each operand's spelling reads back as the operand, the row count because it fits. -/
theorem assemblerInvertsSpelling : Obligations.AssemblerInvertsSpelling := by
  refine ⟨fun i hwf => ?_, fun x => ⟨by simp [AsmLine.assemble], by simp [AsmLine.assemble]⟩⟩
  cases i with
  | ret | cls => rfl
  | jp nnn | call nnn | jpV0 nnn => simp [Instr.asm, AsmLine.assemble]
  | seVB x kk | sneVB x kk | addVB x kk | rnd x kk => simp [Instr.asm, AsmLine.assemble]
  | seVV x y | sneVV x y | orVV x y | andVV x y | xorVV x y | addVV x y | subVV x y | shr x y | subnVV x y | shl x y =>
    simp [Instr.asm, AsmLine.assemble]
  | addIV x | skp x | sknp x => simp [Instr.asm, AsmLine.assemble]
  | ldVB x kk | ldVV x y | ldI nnn | ldFV x | ldBV x | ldMemV x | ldVMem x | ldVDT x | ldDTV x | ldSTV x | ldVK x =>
    simp [Instr.asm, AsmLine.assemble, assembleLd]
  | drw x y n =>
    have hn : rowCountFits n = true := hwf
    simp [Instr.asm, AsmLine.assemble, asmRows, hn]

end Sys2Proof
end

section
namespace Sys2Proof.Machine

/-! ## Frames of the updates instructions are made of, beside those of setPc, setV and setI -/

section
variable (s : State)

theorem frameExcept_latch (f : Fault) : FrameExcept [] [] [.fault] s (s.latch f) := by
  constructor <;> simp

theorem frameExcept_push_setPc (w p : Word) (h : s.sp.val < 16) : FrameExcept [] [] [.stack] s ((s.push w h).setPc p) := by
  constructor <;> simp

theorem frameExcept_popPc (h : 0 < s.sp.val) : FrameExcept [] [] [.stack] s (s.popPc h) := by
  constructor <;> simp

theorem frameExcept_setVFlag_advance (x : RegNum) (b c : Byte) :
    FrameExcept [x, 15] [] [] s (s.setVFlag x b c).advance := by
  constructor <;> simp +contextual

theorem frameExcept_rnd_drawn (x : RegNum) (b : Byte) :
    FrameExcept [x] [] [.entropy] s (s.entropyAsked.setV x b).advance := by
  constructor <;> simp +contextual

theorem frameExcept_rnd_failed (f : Fault) : FrameExcept [] [] [.fault, .entropy] s (s.entropyAsked.latch f) := by
  constructor <;> simp

theorem frameExcept_setDT_advance (b : Byte) : FrameExcept [] [] [.delayTimer] s (s.setDT b).advance := by
  constructor <;> simp

theorem frameExcept_setST_advance (b : Byte) : FrameExcept [] [] [.soundTimer] s (s.setST b).advance := by
  constructor <;> simp

theorem frameExcept_setDisp_advance (d : Display) : FrameExcept [] [] [.display] s (s.setDisp d).advance := by
  constructor <;> simp

theorem frameExcept_drw (d : Display) (c : Byte) :
    FrameExcept [15] [] [.display] s ((s.setDisp d).setV regVF c).advance := by
  constructor <;> simp +contextual

theorem frameExcept_setRegBlock_advance (x : RegNum) (g : Nat → Byte) :
    FrameExcept ((List.finRange 16).filter (· ≤ x)) [] [] s (s.setRegBlock x g).advance := by
  constructor <;> simp +contextual

/-- A block store leaves alone every byte outside the block. -/
theorem frameExcept_writeAtIndex_advance (bs : List Byte) :
    FrameExcept [] ((List.range bs.length).map (effAddr s)) [] s (s.writeAtIndex bs).advance := by
  constructor
  case memory =>
    intro a ha
    rw [readByte_advance, readByte_writeAtIndex, if_neg]
    rintro ⟨hlow, hhigh⟩
    exact ha (List.mem_map.2 ⟨a - s.i.toNat, List.mem_range.2 (by omega), by rw [effAddr]; omega⟩)
  all_goals simp

end

/-! ## Control transfer (40_control.md R101, R103, R104) -/

/-- The exact sum fits 16 bits, so the target is never wrapped. -/
theorem indexedTarget_toNat (nnn : Addr12) (s : State) :
    (indexedTarget nnn s).toNat = nnn.toNat + (s.readV 0).toNat := by
  have hn := nnn.isLt
  have hv := (s.readV regV0).isLt
  change _ = _ + (s.readV regV0).toNat
  simp only [indexedTarget, zext16, BitVec.toNat_add, BitVec.toNat_setWidth]
  omega

/-- Settles O16: one `setPc`, to the exact sum. -/
theorem indexedJumpAddsV0 : Obligations.IndexedJumpAddsV0 := fun nnn s =>
  ⟨s.setPc (indexedTarget nnn s), rfl, indexedTarget_toNat nnn s, frameExcept_setPc s _⟩

theorem exec_call_below {s : State} (nnn : Addr12) (h : s.sp.val < 16) :
    exec (.call nnn) s = .next ((s.push (returnAddress s) h).setPc (addrTarget nnn)) := dif_pos h

theorem exec_call_full {s : State} (nnn : Addr12) (h : s.sp.val = 16) :
    exec (.call nnn) s = .next (s.latch .stackOverflow) := dif_neg (by omega)

theorem exec_ret_above {s : State} (h : 0 < s.sp.val) : exec .ret s = .next (s.popPc h) := dif_pos h

theorem exec_ret_empty {s : State} (h : s.sp.val = 0) : exec .ret s = .next (s.latch .stackUnderflow) :=
  dif_neg (by omega)

/-- The stack's entries after a push. -/
theorem getElem_push_stack (s : State) (w : Word) (h : s.sp.val < 16) (j : Fin 16) :
    (s.push w h).stack[j.val] = if j.val = s.sp.val then w else s.stack[j.val] := by
  simp only [push_stack, Vector.getElem_set, eq_comm (a := j.val)]

/-- Settles O17: below depth 16 a push and a `setPc`, at depth 16 a latch. -/
theorem callPushesReturnAddress : Obligations.CallPushesReturnAddress := by
  intro nnn s
  constructor
  · intro h
    exact ⟨_, exec_call_below nnn h, addrTarget_toNat nnn, rfl, getElem_push_stack s _ h, frameExcept_push_setPc s _ _ h⟩
  · intro h
    exact ⟨_, exec_call_full nnn h, rfl, rfl, frameExcept_latch s _⟩

/-- Settles O18: above depth 0 a pop, at depth 0 a latch. -/
theorem returnPopsIntoPc : Obligations.ReturnPopsIntoPc := by
  intro s
  constructor
  · intro h
    exact ⟨_, exec_ret_above h, rfl, fun j hj => by simp [hj], rfl, frameExcept_popPc s h⟩
  · intro h
    exact ⟨_, exec_ret_empty h, rfl, rfl, frameExcept_latch s _⟩

/-- Settles O19: the pop reads the entry the push wrote, and the entries below it are those before. -/
theorem returnUndoesCall : Obligations.ReturnUndoesCall := by
  intro nnn s h
  have hpos : 0 < ((s.push (returnAddress s) h).setPc (addrTarget nnn)).sp.val := Nat.succ_pos _
  refine ⟨_, _, exec_call_below nnn h, exec_ret_above hpos, ?_, rfl, ?_, ?_⟩
  · simp [returnAddress]
  · intro j hj
    exact (getElem_push_stack s _ h j).trans (if_neg (by omega))
  · constructor <;> simp

/-! ## Keys (43_timers_keys.md R163 to R165) -/

theorem lowNibble_val (v : Byte) : (lowNibble v).val = v.toNat % 16 := by
  simp [lowNibble]

/-- Settles O21: each skip is one `skipIf` on the key the low nibble names; SKNP tests the negation. -/
theorem keySkipsTestTheNamedKey : Obligations.KeySkipsTestTheNamedKey := by
  intro x k s hk
  have hnamed : s.keyNamed (s.readV x) = s.key[k.val] := by simp only [State.keyNamed, lowNibble_val, hk]
  constructor
  · exact ⟨s.skipIf (s.keyNamed (s.readV x)), rfl, by rw [skipIf_pc, hnamed], frameExcept_skipIf s _⟩
  · exact ⟨s.skipIf (!s.keyNamed (s.readV x)), rfl, by rw [skipIf_pc, hnamed]; cases s.key[k.val] <;> rfl,
      frameExcept_skipIf s _⟩

/-- The lowest key that is down is the one the wait takes: two keys with this property are one. -/
theorem lowestKey_eq_of_lowest {s : State} {k : RegNum} (hk : s.key[k.val] = true)
    (hlow : ∀ j : RegNum, j < k → s.key[j.val] = false) : s.lowestKey = some k := by
  cases hl : s.lowestKey with
  | none => rw [lowestKey_eq_none.1 hl k] at hk; cases hk
  | some j =>
    obtain ⟨hj, hjlow⟩ := lowestKey_eq_some hl
    rcases lt_trichotomy j k with hlt | rfl | hgt
    · rw [hlow j hlt] at hj; cases hj
    · rfl
    · rw [hjlow k hgt] at hk; cases hk

/-- Settles O43: with no key down the instruction answers the state itself, else it writes the lowest key's number. -/
theorem keyWaitTakesTheLowestKey : Obligations.KeyWaitTakesTheLowestKey := by
  intro x s
  constructor
  · intro hup
    simp [exec, execLdVK, lowestKey_eq_none.2 hup]
  · intro k hk hlow
    obtain ⟨hx, hpc, hframe⟩ := setV_advance_spec s x (BitVec.ofNat 8 k.val)
    refine ⟨_, by simp only [exec, execLdVK, lowestKey_eq_of_lowest hk hlow], ?_, hpc, hframe⟩
    rw [hx, BitVec.toNat_ofNat]
    omega

/-! ## Arithmetic without a flag (41_alu.md R122, R124 to R126) -/

/-- Settles O23: one register write, of the sum modulo 256. -/
theorem addImmediateWritesNoCarry : Obligations.AddImmediateWritesNoCarry := by
  intro x kk s
  obtain ⟨hx, hpc, hframe⟩ := setV_advance_spec s x (s.readV x + kk)
  exact ⟨_, rfl, by rw [hx, BitVec.toNat_add], hpc, hframe⟩

/-- Settles O24: one register write each, of a word whose bits are the operation's. -/
theorem bitwiseOperationsLeaveVF : Obligations.BitwiseOperationsLeaveVF := by
  intro x y s
  refine ⟨?or, ?and, ?xor⟩
  case or =>
    obtain ⟨hx, hrest⟩ := setV_advance_spec s x (s.readV x ||| s.readV y)
    exact ⟨_, rfl, fun b => by rw [hx, BitVec.getLsbD_or], hrest⟩
  case and =>
    obtain ⟨hx, hrest⟩ := setV_advance_spec s x (s.readV x &&& s.readV y)
    exact ⟨_, rfl, fun b => by rw [hx, BitVec.getLsbD_and], hrest⟩
  case xor =>
    obtain ⟨hx, hrest⟩ := setV_advance_spec s x (s.readV x ^^^ s.readV y)
    exact ⟨_, rfl, fun b => by rw [hx, BitVec.getLsbD_xor], hrest⟩

/-! ## Arithmetic with a flag (41_alu.md R127 to R131) -/

/-- What the instructions that answer `(s.setVFlag x b c).advance` do: the flag is in VF in any case, the result in Vx unless
that is VF, PC is past the instruction, and the rest is as it was. -/
theorem setVFlag_advance_spec (s : State) (x : RegNum) (b c : Byte) :
    (x ≠ 15 → (s.setVFlag x b c).advance.readV x = b) ∧ (s.setVFlag x b c).advance.readV 15 = c ∧
      (s.setVFlag x b c).advance.pc = s.pc + 2 ∧ FrameExcept [x, 15] [] [] s (s.setVFlag x b c).advance := by
  refine ⟨fun hx => ?_, ?_, rfl, frameExcept_setVFlag_advance s x b c⟩
  · rw [readV_advance, readV_setVFlag, if_neg hx, if_pos rfl]
  · rw [readV_advance, readV_setVFlag, if_pos rfl]

/-- Settles O25: the sum modulo 256 and the flag of the exact sum. -/
theorem addSetsCarry : Obligations.AddSetsCarry := by
  intro x y s
  obtain ⟨hx, hf, hrest⟩ := setVFlag_advance_spec s x (s.readV x + s.readV y) (carryFlag (s.readV x) (s.readV y))
  exact ⟨_, rfl, fun hne => by rw [hx hne, BitVec.toNat_add], by rw [hf]; simp [carryFlag, flagByte], hrest⟩

theorem toNat_sub_byte (a b : Byte) : (a - b).toNat = (a.toNat + 256 - b.toNat) % 256 := by
  have := b.isLt
  rw [BitVec.toNat_sub]
  omega

/-- Settles O26: the two subtractions differ in which operand is the minuend. -/
theorem subtractionsSetNotBorrow : Obligations.SubtractionsSetNotBorrow := by
  intro x y s
  constructor
  · obtain ⟨hx, hf, hrest⟩ := setVFlag_advance_spec s x (s.readV x - s.readV y) (noBorrowFlag (s.readV x) (s.readV y))
    exact ⟨_, rfl, fun hne => by rw [hx hne, toNat_sub_byte], by rw [hf]; simp [noBorrowFlag, flagByte], hrest⟩
  · obtain ⟨hx, hf, hrest⟩ := setVFlag_advance_spec s x (s.readV y - s.readV x) (noBorrowFlag (s.readV y) (s.readV x))
    exact ⟨_, rfl, fun hne => by rw [hx hne, toNat_sub_byte], by rw [hf]; simp [noBorrowFlag, flagByte], hrest⟩

theorem toNat_flagByte (c : Bool) : (flagByte c).toNat = c.toNat := by
  cases c <;> rfl

theorem toNat_shiftedOutRight (a : Byte) : (shiftedOutRight a).toNat = a.toNat % 2 := by
  rw [shiftedOutRight, toNat_flagByte, BitVec.getLsbD, Nat.toNat_testBit, pow_zero, Nat.div_one]

theorem toNat_shiftedOutLeft (a : Byte) : (shiftedOutLeft a).toNat = a.toNat / 128 := by
  have := a.isLt
  rw [shiftedOutLeft, toNat_flagByte, BitVec.getLsbD, Nat.toNat_testBit]
  omega

/-- Settles O27: the shifts read Vx alone, and the flag is the bit of the old Vx that leaves. -/
theorem shiftsSetTheBitShiftedOut : Obligations.ShiftsSetTheBitShiftedOut := by
  intro x y s
  constructor
  · obtain ⟨hx, hf, hrest⟩ := setVFlag_advance_spec s x (s.readV x >>> 1) (shiftedOutRight (s.readV x))
    refine ⟨_, rfl, fun hne => ?_, by rw [hf, toNat_shiftedOutRight], hrest⟩
    rw [hx hne, BitVec.toNat_ushiftRight, Nat.shiftRight_eq_div_pow, pow_one]
  · obtain ⟨hx, hf, hrest⟩ := setVFlag_advance_spec s x (s.readV x <<< 1) (shiftedOutLeft (s.readV x))
    refine ⟨_, rfl, fun hne => ?_, by rw [hf, toNat_shiftedOutLeft], hrest⟩
    rw [hx hne, BitVec.toNat_shiftLeft, Nat.shiftLeft_eq, pow_one]

/-! ## The random byte (41_alu.md R132) -/

/-- Settles O28: by the host's answer; either way the request is recorded. -/
theorem randomByteIsMasked : Obligations.RandomByteIsMasked := by
  intro x kk s
  constructor
  · intro b hb
    refine ⟨(s.entropyAsked.setV x (b &&& kk)).advance, by simp only [exec, execRnd, hb], ?_, rfl, rfl, rfl,
      frameExcept_rnd_drawn s x _⟩
    rw [readV_advance, readV_setV, if_pos rfl]
  · intro hfail
    exact ⟨s.entropyAsked.latch .entropySourceFailure, by simp only [exec, execRnd, hfail], rfl, rfl, rfl, rfl,
      frameExcept_rnd_failed s _⟩

/-! ## The index register (42_memory_index.md R142, R144) -/

theorem glyphAddr_toNat (v : Byte) : (glyphAddr v).toNat = 5 * (v.toNat % 16) := by
  rw [glyphAddr, BitVec.toNat_ofNat, lowNibble_val, Config.fontBase, Config.fontStride]
  omega

/-- Settles O31: one write of I each, of the sum modulo 2^16 and of the glyph's address. -/
theorem indexArithmeticWritesNoFlag : Obligations.IndexArithmeticWritesNoFlag := by
  intro x s
  constructor
  · obtain ⟨hi, hrest⟩ := setI_advance_spec s (s.i + zext16 (s.readV x))
    refine ⟨_, rfl, ?_, hrest⟩
    rw [hi, BitVec.toNat_add, zext16, BitVec.toNat_setWidth_of_le (by decide)]
  · obtain ⟨hi, hrest⟩ := setI_advance_spec s (glyphAddr (s.readV x))
    exact ⟨_, rfl, by rw [hi, glyphAddr_toNat], hrest⟩

/-! ## Timers and the cleared screen (43_timers_keys.md R160 to R162, 44_display.md R180) -/

/-- Settles O38: a register write of DT, and a write of DT. -/
theorem delayTimerIsReadAndSet : Obligations.DelayTimerIsReadAndSet := by
  intro x s
  constructor
  · exact ⟨_, rfl, setV_advance_spec s x s.dt⟩
  · exact ⟨_, rfl, rfl, rfl, frameExcept_setDT_advance s _⟩

theorem readBeep_iff (s : State) : readBeep s = true ↔ s.st ≠ 0 := decide_eq_true_iff

/-- Settles O39: a write of ST, which the beep level reads. -/
theorem soundTimerIsSet : Obligations.SoundTimerIsSet := by
  intro x s
  exact ⟨_, rfl, rfl, readBeep_iff _, rfl, frameExcept_setST_advance s _⟩

/-- Settles O44: the display is replaced by the clear one. -/
theorem clearScreenClearsEveryPixel : Obligations.ClearScreenClearsEveryPixel := by
  intro s
  exact ⟨_, rfl, pixel_clear, rfl, frameExcept_setDisp_advance s _⟩

/-! ## Accesses at I (42_memory_index.md R145 to R147, 20_memory.md R55) -/

section
variable {s : State}

theorem checked_inside {n : Nat} (h : s.i.toNat + n ≤ 0x1000 ∨ n = 0) (t : State) : checked n s t = .next t := by
  rw [checked_eq, if_pos h]

theorem checked_outside {n : Nat} (h : 0x1000 < s.i.toNat + n) (hn : 0 < n) (t : State) :
    checked n s t = .next (s.latch (.outOfBounds (max s.i.toNat 0x1000))) := by
  rw [checked_eq, if_neg (by omega)]

/-- Byte k of a block stored at I. -/
theorem readByte_writeAtIndex_effAddr (bs : List Byte) {k : Nat} (hk : k < bs.length) :
    (s.writeAtIndex bs).readByte (effAddr s k) = bs.getD k 0 := by
  rw [readByte_writeAtIndex, effAddr, if_pos (by omega), Nat.add_sub_cancel_left]

end

/-- Settles O35: each of the four is one bounds check of its own length, and a failed one latches and no more. -/
theorem indexedAccessesFaultOutsideMemory : Obligations.IndexedAccessesFaultOutsideMemory := by
  rintro i len s (⟨x, rfl, rfl⟩ | ⟨x, rfl, rfl⟩ | ⟨x, rfl, rfl⟩ | ⟨x, y, rfl, hpos⟩) h
  · exact checked_outside h (by decide) _
  · exact checked_outside h (Nat.succ_pos _) _
  · exact checked_outside h (Nat.succ_pos _) _
  · exact checked_outside h hpos _

/-- Settles O32: the three digits are the block stored. -/
theorem decimalDigitsAreStored : Obligations.DecimalDigitsAreStored := by
  intro x s h
  have hv := (s.readV x).isLt
  have digit (k : Nat) (hk : k < 3) :
      ((s.writeAtIndex (bcdDigits (s.readV x))).advance.readByte (effAddr s k)) = (bcdDigits (s.readV x)).getD k 0 :=
    readByte_writeAtIndex_effAddr _ hk
  refine ⟨_, checked_inside (.inl h) _, ?_, ?_, ?_, rfl,
    frameExcept_writeAtIndex_advance s (bcdDigits (s.readV x))⟩
  · rw [digit 0 (by decide)]
    exact Nat.mod_eq_of_lt (by omega)
  · rw [digit 1 (by decide)]
    exact Nat.mod_eq_of_lt (by omega)
  · rw [digit 2 (by decide)]
    exact Nat.mod_eq_of_lt (by omega)

/-- Settles O33: byte k of the block stored is Vk. -/
theorem registerBlockIsStored : Obligations.RegisterBlockIsStored := by
  intro x s h
  refine ⟨_, checked_inside (.inl h) _, fun k hk => ?_, rfl, ?_⟩
  · rw [readByte_advance, readByte_writeAtIndex_effAddr _ (by rw [length_regBlock]; exact Nat.lt_succ_of_le hk),
      getD_regBlock s x k hk]
  · rw [← length_regBlock s x]
    exact frameExcept_writeAtIndex_advance s _

/-- Settles O34: the registers up to Vx are the bytes of the block. -/
theorem registerBlockIsLoaded : Obligations.RegisterBlockIsLoaded := by
  intro x s h
  refine ⟨_, checked_inside (.inl h) _, fun k hk => ?_, rfl, frameExcept_setRegBlock_advance s x _⟩
  rw [readV_advance, readV_setRegBlock, if_pos hk]

/-- Settles O36: the load reads, at the same I, the bytes the store wrote. -/
theorem storedBlockLoadsBack : Obligations.StoredBlockLoadsBack := by
  intro x s h
  obtain ⟨t, ht, hstored, -⟩ := registerBlockIsStored x s h
  refine ⟨t, ht, fun u hmem hi => ?_⟩
  obtain ⟨w, hw, hloaded, -⟩ := registerBlockIsLoaded x u (by rwa [hi])
  refine ⟨w, hw, fun k hk => ?_⟩
  calc w.readV k = u.readByte (effAddr u k.val) := hloaded k hk
    _ = t.readByte (effAddr s k.val) := by rw [readByte_congr hmem, effAddr, hi, effAddr]
    _ = s.readV k := hstored k hk

/-! ## The fetch after a store (20_memory.md R61, R64) -/

/-- Only the bytes of the block matter to what is read after the store. -/
theorem byteAfterStore_congr (s : State) {n : Nat} {f g : Nat → Byte} (h : ∀ k, k < n → f k = g k) :
    byteAfterStore s n f = byteAfterStore s n g := by
  funext a
  unfold byteAfterStore
  split
  case isTrue ha => exact h _ (by omega)
  case isFalse => rfl

/-- The fetch after a block store and the advance. -/
theorem fetch_writeAtIndex_advance {s : State} (hpc : s.pc.toNat + 4 ≤ 0x1000) (bs : List Byte) {stored : Nat → Byte}
    (h : ∀ k, k < bs.length → bs.getD k 0 = stored k) :
    fetch (s.writeAtIndex bs).advance = .ok (wordOfBytes (byteAfterStore s bs.length stored (s.pc.toNat + 2))
      (byteAfterStore s bs.length stored (s.pc.toNat + 3))) := by
  have hpc' : (s.writeAtIndex bs).advance.pc.toNat = s.pc.toNat + 2 := by
    rw [advance_pc, writeAtIndex_pc, BitVec.toNat_add]
    exact Nat.mod_eq_of_lt (by simp; omega)
  rw [fetch_eq_ok (by omega), hpc', readByte_advance, readByte_advance, readByte_writeAtIndex_after,
    readByte_writeAtIndex_after, byteAfterStore_congr s h]

/-- Settles O37: both stores write a block at I, and the fetch reads through it. -/
theorem nextFetchSeesTheStore : Obligations.NextFetchSeesTheStore := by
  intro x s hpc
  constructor
  · intro hi
    refine ⟨_, checked_inside (.inl hi) _, ?_⟩
    rw [← length_regBlock s x]
    refine fetch_writeAtIndex_advance hpc _ fun k hk => ?_
    rw [length_regBlock] at hk
    have hk16 : (Fin.ofNat 16 k).val = k := Nat.mod_eq_of_lt (by omega)
    have hle : Fin.ofNat 16 k ≤ x := by rw [Fin.le_def, hk16]; omega
    simpa only [hk16] using getD_regBlock s x (Fin.ofNat 16 k) hle
  · intro hi
    refine ⟨_, checked_inside (.inl hi) _, fetch_writeAtIndex_advance hpc (bcdDigits (s.readV x)) fun k hk => ?_⟩
    have hv := (s.readV x).isLt
    rw [length_bcdDigits] at hk
    have hundreds : (s.readV x).toNat / 100 % 10 = (s.readV x).toNat / 100 := Nat.mod_eq_of_lt (by omega)
    interval_cases k
    · exact congrArg (BitVec.ofNat 8) hundreds.symm
    · rfl
    · simp [bcdDigits]

end Sys2Proof.Machine
end

section
namespace Sys2Proof.Machine

/-! ## The cycle, branch by branch (60_exceptions.md R205 to R208) -/

section
variable {s t : State} {w : Word}

theorem step_of_fetch_error {f : Fault} (hf : s.fault = none) (hw : fetch s = .error f) : step s = .next (s.latch f) := by
  unfold step
  rw [hf, hw]
  rfl

theorem step_of_unknownOpcode (hf : s.fault = none) (hw : fetch s = .ok w) (hu : decodeWord w = .unknownOpcode w) :
    step s = .next (s.latch (.unknownOpcode w)) := by
  unfold step
  rw [hf, hw]
  simp only [hu]
  rfl

/-- What a step with a next state did: it latched a fault of the fetch or of the decoder, and no instruction ran, or the
instruction at PC had its effect. -/
theorem step_effect (h : step s = .next t) : s.fault = none ∧
    ((nextInstr s = none ∧ ∃ f : Fault, f ≠ .entropySourceFailure ∧ f.legitimate ∧ t = s.latch f) ∨
      (s.pc.toNat + 1 < 4096 ∧ ∃ i, nextInstr s = some i ∧ Effect s i t)) := by
  obtain ⟨hf, ⟨hp, ht⟩ | ⟨hp, hu, ht⟩ | ⟨hp, i, hi, ht⟩⟩ := step_cases h
  · exact ⟨hf, .inl ⟨nextInstr_eq_none (.inl hp), _, by simp, by simp only [Fault.legitimate]; omega, ht⟩⟩
  · exact ⟨hf, .inl ⟨nextInstr_eq_none (.inr hu), .unknownOpcode (wordAtPc s), by simp, hu, ht⟩⟩
  · exact ⟨hf, .inr ⟨hp, i, nextInstr_eq hp hi, exec_effect ht⟩⟩

/-- What an instruction can do to the latch: nothing, or raise a fault and change nothing else but, for a failed entropy
source, the request's record. -/
theorem Effect.latch_cases {i : Instr} (h : Effect s i t) : t.fault = s.fault ∨
    (∃ f : Fault, f ≠ .entropySourceFailure ∧ f.legitimate ∧ t = s.latch f) ∨
    t = s.entropyAsked.latch .entropySourceFailure := by
  cases h with
  | raised _ f hi hf hl => exact .inr (.inl ⟨f, hf, hl, rfl⟩)
  | rndFailed x kk h => exact .inr (.inr rfl)
  | _ => exact .inl (by simp)

/-- The same of a step, whose latch was empty. -/
theorem step_latch_cases (h : step s = .next t) : t.fault = none ∨
    (∃ f : Fault, f ≠ .entropySourceFailure ∧ f.legitimate ∧ t = s.latch f) ∨
    t = s.entropyAsked.latch .entropySourceFailure := by
  obtain ⟨hf, ⟨-, hl⟩ | ⟨-, i, -, he⟩⟩ := step_effect h
  · exact .inr (.inl hl)
  · rw [← hf]
    exact he.latch_cases

end

/-- Settles O8: the two bytes at PC are the fetched word. -/
theorem stepRunsDecodedInstruction : Obligations.StepRunsDecodedInstruction := by
  intro s i hf hpc hdecode
  have hi : decodeWord (wordAtPc s) = .instr i := congrArg Prod.fst hdecode
  exact step_instr hf (by omega) hi

/-- Settles O9: the two branches of the step before an instruction runs. -/
theorem fetchAndDecodeFaultsAreLatched : Obligations.FetchAndDecodeFaultsAreLatched := by
  intro s hf
  exact ⟨fun hpc => step_of_fetch_error hf (fetch_eq_error (by omega)), fun w hw hu => step_of_unknownOpcode hf hw hu⟩

theorem transact_reset {font : List Byte} (h : font.length = 80) (s : State) :
    transact (.reset font) s = .next (hostReset font s, .done) := if_pos h

/-- Settles O10: the latched branch of the step, passed on by the transaction; reset starts from an empty latch. -/
theorem latchedFaultStopsCyclesUntilReset : Obligations.LatchedFaultStopsCyclesUntilReset := by
  intro s f hf
  refine ⟨step_latched hf, ?_, fun font hfont => ⟨_, transact_reset hfont s, rfl⟩⟩
  rw [runInstructionCycle, step_latched hf]

/-! ## The result of a cycle (60_exceptions.md R220) -/

theorem transact_cycle {s t : State} (h : step s = .next t) :
    transact .runInstructionCycle s = .next (t, .cycle (cycleResult s t)) := by
  simp only [transact, runInstructionCycle, h]

theorem cycleResult_of_fault {s t : State} {f : Fault} (h : t.fault = some f) : cycleResult s t = .err f := by
  rw [cycleResult, h]

theorem cycleResult_of_instr {s t : State} {i : Instr} (h : t.fault = none) (hi : nextInstr s = some i) :
    cycleResult s t = .ok ⟨redraws i, readBeep t⟩ := by
  rw [cycleResult, h, hi]
  rfl

theorem redraws_iff (i : Instr) : redraws i = true ↔ i = .cls ∨ ∃ x y n, i = .drw x y n := by
  cases i <;> simp [redraws]

/-- Settles O11: the transaction returns the cycle's result, which is read off the latch; with an empty latch after the step
an instruction has run. -/
theorem cycleReturnsItsEffects : Obligations.CycleReturnsItsEffects := by
  refine ⟨fun s t h => ⟨fun f hf => ?err, fun hnone => ?ok⟩, fun s hf hpc => ?fetch, fun s w hf hw hu => ?decode⟩
  case err => rw [transact_cycle h, cycleResult_of_fault hf]
  case ok =>
    obtain ⟨-, ⟨-, f, -, -, rfl⟩ | ⟨-, i, hi, -⟩⟩ := step_effect h
    · cases hnone
    · exact ⟨i, _, hi, by rw [transact_cycle h, cycleResult_of_instr hnone hi], redraws_iff i, readBeep_iff t⟩
  case fetch => exact transact_cycle (step_of_fetch_error hf (fetch_eq_error (by omega)))
  case decode => exact transact_cycle (step_of_unknownOpcode hf hw hu)

/-- Settles O12: a step that latches a fault only latches it, or has asked the entropy source and latches its failure. -/
theorem cycleFaultsAreAtomic : Obligations.CycleFaultsAreAtomic := by
  intro s t f h hf
  rcases step_latch_cases h with hnone | ⟨g, -, -, rfl⟩ | rfl
  · rw [hnone] at hf
    cases hf
  · cases hf
    exact ⟨rfl, rfl, by constructor <;> simp, fun _ => rfl⟩
  · cases hf
    exact ⟨rfl, rfl, frameExcept_rnd_failed s _, fun hne => absurd rfl hne⟩

/-! ## Every instruction answers a next state -/

theorem checked_answers_next (n : Nat) (s t : State) : ∃ u, checked n s t = .next u := by
  rw [checked_eq]
  split
  · exact ⟨_, rfl⟩
  · exact ⟨_, rfl⟩

/-- Settles O13: by the instruction; a call, a return and an access at I are a next state on both sides of their check. -/
theorem everyInstructionAnswersNext : Obligations.EveryInstructionAnswersNext := by
  intro i s
  cases i with
  | ret =>
    rcases Nat.eq_zero_or_pos s.sp.val with h | h
    · exact ⟨_, exec_ret_empty h⟩
    · exact ⟨_, exec_ret_above h⟩
  | call nnn =>
    rcases Nat.lt_or_ge s.sp.val 16 with h | h
    · exact ⟨_, exec_call_below nnn h⟩
    · exact ⟨_, exec_call_full nnn (by omega)⟩
  | ldBV x | ldMemV x | ldVMem x | drw x y n => exact checked_answers_next _ _ _
  | ldVK x =>
    simp only [exec, execLdVK]
    cases s.lowestKey with
    | none => exact ⟨_, rfl⟩
    | some k => exact ⟨_, rfl⟩
  | _ => exact ⟨_, rfl⟩

/-! ## A placed word is fetched (20_memory.md R56, log 15) -/

section
variable (s : State) (w : Word)

theorem withFetchWord_pc_lt : (s.withFetchWord 16 w.toNat).pc.toNat + 1 < 4096 := by
  simp only [State.withFetchWord]
  split
  case isTrue => decide
  case isFalse h => omega

theorem wordAtPc_withFetchWord : wordAtPc (s.withFetchWord 16 w.toNat) = w := by
  have hw : BitVec.ofNat 16 (w.toNat % 2 ^ 16) = w := by
    rw [Nat.mod_eq_of_lt w.isLt, BitVec.ofNat_toNat, BitVec.setWidth_eq]
  have hmem : (s.withFetchWord 16 w.toNat).mem = s.mem.writeBytes (s.withFetchWord 16 w.toNat).pc.toNat
      (bytesOfWord (BitVec.ofNat 16 (w.toNat % 2 ^ 16))) := rfl
  rw [hw] at hmem
  rw [wordAtPc, State.readByte, State.readByte, hmem, read_writeBytes, read_writeBytes, if_pos (by simp [bytesOfWord]),
    if_pos (by simp [bytesOfWord])]
  simpa [bytesOfWord] using wordOfBytes_bytesOfWord w

end

/-- Settles O14: the placed word is the one at PC, and it decodes to the instruction it encodes. -/
theorem placedWordIsTheNextToRun : Obligations.PlacedWordIsTheNextToRun := by
  intro i s hwf
  refine step_instr rfl (withFetchWord_pc_lt s _) ?_
  rw [wordAtPc_withFetchWord, decodeWord_encode hwf]

/-! ## What each part of the state is changed by (10_state.md) -/

section
variable {s t : State} {i : Instr}

theorem Effect.key_eq (h : Effect s i t) : t.key = s.key := by
  cases h <;> simp

theorem Effect.dt_cases (h : Effect s i t) : t.dt = s.dt ∨ ∃ x, i = .ldDTV x := by
  cases h with
  | setDelay x => exact .inr ⟨x, rfl⟩
  | _ => exact .inl (by simp)

theorem Effect.st_cases (h : Effect s i t) : t.st = s.st ∨ ∃ x, i = .ldSTV x := by
  cases h with
  | setSound x => exact .inr ⟨x, rfl⟩
  | _ => exact .inl (by simp)

theorem Effect.mem_cases (h : Effect s i t) : t.mem = s.mem ∨ ∃ x, i = .ldBV x ∨ i = .ldMemV x := by
  cases h with
  | stored _ bs hb hi => exact .inr hi
  | _ => exact .inl (by simp)

theorem Effect.i_cases (h : Effect s i t) : t.i = s.i ∨ (∃ n, i = .ldI n) ∨ ∃ x, i = .addIV x ∨ i = .ldFV x := by
  cases h with
  | wroteI _ w hi => exact .inr hi
  | _ => exact .inl (by simp)

theorem Effect.entropy_cases (h : Effect s i t) : (∃ x kk, i = .rnd x kk ∧ t.entropyCount = s.entropyCount + 1) ∨
    ((∀ x kk, i ≠ .rnd x kk) ∧ t.entropyCount = s.entropyCount ∧ t.entropyPending = s.entropyPending) := by
  cases h with
  | rndFailed x kk h => exact .inl ⟨x, kk, rfl, rfl⟩
  | rndDrawn x kk b h => exact .inl ⟨x, kk, rfl, rfl⟩
  | raised _ _ hi | skipped _ _ hi | wroteV _ _ _ hi | wroteVFlag _ _ _ _ hi | wroteI _ _ hi | stored _ _ _ hi =>
    exact .inr ⟨by rintro x kk rfl; simp at hi, rfl, rfl⟩
  | _ => exact .inr ⟨nofun, by simp, by simp⟩

/-- VF after an instruction that is no flag writer has moved only by being written as a register. -/
theorem Effect.readV15_cases (h : Effect s i t) (hne : t.readV 15 ≠ s.readV 15) :
    (∃ x y, i = .addVV x y ∨ i = .subVV x y ∨ i = .shr x y ∨ i = .subnVV x y ∨ i = .shl x y) ∨
     (∃ x y n, i = .drw x y n) ∨
     (∃ y, i = .ldVV 15 y ∨ i = .orVV 15 y ∨ i = .andVV 15 y ∨ i = .xorVV 15 y) ∨
     (∃ kk, i = .ldVB 15 kk ∨ i = .addVB 15 kk ∨ i = .rnd 15 kk) ∨
     i = .ldVMem 15 ∨ i = .ldVDT 15 ∨ i = .ldVK 15 := by
  cases h with
  | wroteVFlag _ x b c hi => exact .inl ⟨x, hi⟩
  | drew x y n d c => exact .inr (.inl ⟨x, y, n, rfl⟩)
  | wroteV _ x b hi =>
    have hx : 15 = x := by
      by_contra hx
      exact hne (by rw [readV_advance, readV_setV, if_neg hx])
    subst hx
    grind
  | rndDrawn x kk b h =>
    have hx : 15 = x := by
      by_contra hx
      exact hne (by rw [readV_advance, readV_setV, if_neg hx, readV_entropyAsked])
    subst hx
    grind
  | loadedBlock x g =>
    have hx : 15 ≤ x := by
      by_contra hx
      exact hne (by rw [readV_advance, readV_setRegBlock, if_neg hx])
    obtain rfl : x = 15 := le_antisymm (Fin.le_last x) hx
    grind
  | _ => exact absurd rfl hne

end

/-- Settles O29: an effect asks the host exactly when it is RND's, and a fault of the fetch or the decoder never does. -/
theorem onlyRndAsksForEntropy : Obligations.OnlyRndAsksForEntropy := by
  intro s t h
  obtain ⟨-, ⟨hnone, f, -, -, rfl⟩ | ⟨-, i, hi, he⟩⟩ := step_effect h
  · exact .inr ⟨by simp [hnone], rfl, rfl⟩
  · simpa [hi] using he.entropy_cases

/-- Settles O42: by the effect of the instruction that ran. -/
theorem cyclesNeverTickNorTouchKeys : Obligations.CyclesNeverTickNorTouchKeys := by
  intro s t h
  obtain ⟨-, ⟨-, f, -, -, rfl⟩ | ⟨-, i, hi, he⟩⟩ := step_effect h
  · exact ⟨.inl rfl, .inl rfl, rfl⟩
  · simpa [hi] using ⟨he.dt_cases, he.st_cases, he.key_eq⟩

/-- Settles O47: a fault of the fetch or the decoder leaves VF, and so does every effect but those named. -/
theorem onlyFlagWritersChangeVF : Obligations.OnlyFlagWritersChangeVF := by
  intro s t h hne
  obtain ⟨-, ⟨-, f, -, -, rfl⟩ | ⟨-, i, hi, he⟩⟩ := step_effect h
  · exact absurd rfl hne
  · exact ⟨i, hi, he.readV15_cases hne⟩

/-- Settles O50: by the effect of the instruction that ran. -/
theorem writersOfMemoryAndIndex : Obligations.WritersOfMemoryAndIndex := by
  intro s t h
  obtain ⟨-, ⟨-, f, -, -, rfl⟩ | ⟨-, i, hi, he⟩⟩ := step_effect h
  · exact ⟨.inl fun _ => rfl, .inl rfl⟩
  · simpa [hi] using ⟨he.mem_cases.imp_left readByte_congr, he.i_cases⟩

end Sys2Proof.Machine
end

section
namespace Sys2Proof.Machine

/-! ## Parts of the state an instruction does not use (10_state.md R27, R29, R30) -/

/-- A bounds check commutes with a change of the state that keeps I and the latch's place. -/
theorem checked_onNext (change : State → State) {n : Nat} {s t u : State} (hi : (change s).i = s.i)
    (hl : ∀ f, (change s).latch f = change (s.latch f)) (hu : u = change t) :
    checked n (change s) u = onNext change (checked n s t) := by
  rw [checked_eq, checked_eq, hi, hu]
  split
  case isTrue => rfl
  case isFalse => exact congrArg Host.Outcome.next (hl _)

/-- A return commutes with a change that keeps the depth, and with which the pop commutes. -/
theorem execRet_onNext (change : State → State) {s : State} (hsp : (change s).sp = s.sp)
    (hpop : ∀ h h', (change s).popPc h' = change (s.popPc h)) (hl : ∀ f, (change s).latch f = change (s.latch f)) :
    exec .ret (change s) = onNext change (exec .ret s) := by
  rcases Nat.eq_zero_or_pos s.sp.val with h | h
  · rw [exec_ret_empty h, exec_ret_empty (by rwa [hsp]), hl]
    rfl
  · have h' : 0 < (change s).sp.val := by rwa [hsp]
    rw [exec_ret_above h, exec_ret_above h', hpop h h']
    rfl

/-- A call commutes with a change that keeps the depth, and with which the push and the jump commute. -/
theorem execCall_onNext (change : State → State) (nnn : Addr12) {s : State} (hsp : (change s).sp = s.sp)
    (hpush : ∀ h h', ((change s).push (returnAddress (change s)) h').setPc (addrTarget nnn) =
      change ((s.push (returnAddress s) h).setPc (addrTarget nnn)))
    (hl : ∀ f, (change s).latch f = change (s.latch f)) :
    exec (.call nnn) (change s) = onNext change (exec (.call nnn) s) := by
  rcases Nat.lt_or_ge s.sp.val 16 with h | h
  · have h' : (change s).sp.val < 16 := by rwa [hsp]
    rw [exec_call_below nnn h, exec_call_below nnn h', hpush h h']
    rfl
  · have h16 : s.sp.val = 16 := by omega
    rw [exec_call_full nnn h16, exec_call_full nnn (by rwa [hsp]), hl]
    rfl

/-- `RND` commutes with a change of the state that keeps the host's next answer, and with which its two next states commute. -/
theorem execRnd_onNext (change : State → State) (x : RegNum) (kk : Byte) (s : State)
    (he : (change s).nextEntropy = s.nextEntropy)
    (hb : ∀ b, (((change s).entropyAsked).setV x b).advance = change ((s.entropyAsked.setV x b).advance))
    (hf : ∀ f, (change s).entropyAsked.latch f = change (s.entropyAsked.latch f)) :
    execRnd x kk (change s) = onNext change (execRnd x kk s) := by
  simp only [execRnd, onNext, he]
  cases s.nextEntropy with
  | ok b => exact congrArg Host.Outcome.next (hb _)
  | fail => exact congrArg Host.Outcome.next (hf _)

/-- So does the key wait, with the lowest key in the place of the answer. -/
theorem execLdVK_onNext (change : State → State) (x : RegNum) (s : State)
    (hk : (change s).lowestKey = s.lowestKey) (hb : ∀ b, ((change s).setV x b).advance = change ((s.setV x b).advance)) :
    execLdVK x (change s) = onNext change (execLdVK x s) := by
  simp only [execLdVK, hk]
  cases s.lowestKey with
  | some k => exact congrArg Host.Outcome.next (hb _)
  | none => rfl

/-- Replace the stack and its depth. -/
def withStack (stack : Vector Word 16) (sp : Fin 17) (s : State) : State := { s with stack := stack, sp := sp }

/-- Replace the keys. -/
def withKeys (key : Vector Bool 16) (s : State) : State := { s with key := key }

/-- Replace the display. -/
def withDisplay (disp : Display) (s : State) : State := { s with disp := disp }

/-- Settles O48: by the instruction; every meaning but those of CALL and RET commutes with the replacement. -/
theorem stackIsPrivateToCallAndReturn : Obligations.StackIsPrivateToCallAndReturn := by
  intro i s stack sp hret hcall
  change exec i (withStack stack sp s) = onNext (withStack stack sp) (exec i s)
  cases i with
  | ret => exact absurd rfl hret
  | call nnn => exact absurd rfl (hcall nnn)
  | ldBV x | ldMemV x | ldVMem x | drw x y n => exact checked_onNext (withStack stack sp) rfl (fun _ => rfl) rfl
  | rnd x kk => exact execRnd_onNext _ x kk s rfl (fun _ => rfl) fun _ => rfl
  | ldVK x => exact execLdVK_onNext _ x s rfl fun _ => rfl
  | _ => rfl

/-- Settles O49: by the instruction; every meaning but those named commutes with the replacement. -/
theorem keysAndDisplayArePrivate : Obligations.KeysAndDisplayArePrivate := by
  constructor
  · intro i s key hkeys
    change exec i (withKeys key s) = onNext (withKeys key) (exec i s)
    cases i with
    | skp x => exact absurd rfl (hkeys x).1
    | sknp x => exact absurd rfl (hkeys x).2.1
    | ldVK x => exact absurd rfl (hkeys x).2.2
    | ret => exact execRet_onNext _ rfl (fun _ _ => rfl) fun _ => rfl
    | call nnn => exact execCall_onNext _ nnn rfl (fun _ _ => rfl) fun _ => rfl
    | ldBV x | ldMemV x | ldVMem x | drw x y n => exact checked_onNext (withKeys key) rfl (fun _ => rfl) rfl
    | rnd x kk => exact execRnd_onNext _ x kk s rfl (fun _ => rfl) fun _ => rfl
    | _ => rfl
  · intro i s disp hcls hdrw
    change exec i (withDisplay disp s) = onNext (withDisplay disp) (exec i s)
    cases i with
    | cls => exact absurd rfl hcls
    | drw x y n => exact absurd rfl (hdrw x y n)
    | ret => exact execRet_onNext _ rfl (fun _ _ => rfl) fun _ => rfl
    | call nnn => exact execCall_onNext _ nnn rfl (fun _ _ => rfl) fun _ => rfl
    | ldBV x | ldMemV x | ldVMem x => exact checked_onNext (withDisplay disp) rfl (fun _ => rfl) rfl
    | rnd x kk => exact execRnd_onNext _ x kk s rfl (fun _ => rfl) fun _ => rfl
    | ldVK x => exact execLdVK_onNext _ x s rfl fun _ => rfl
    | _ => rfl

/-! ## Odd program counters (20_memory.md, alignment) -/

/-- Adding an even word keeps a word's parity, whatever wraps. -/
theorem toNat_add_mod_two (w d : Word) (hd : d.toNat % 2 = 0) : (w + d).toNat % 2 = w.toNat % 2 := by
  rw [BitVec.toNat_add]
  omega

/-- What an instruction does to PC: it stays, moves on by 2 or 4, or is transferred. -/
theorem Effect.pc_cases {s t : State} {i : Instr} (h : Effect s i t) :
    t.pc = s.pc ∨ t.pc = s.pc + 2 ∨ t.pc = s.pc + 4 ∨
    (∃ nnn, (i = .jp nnn ∨ i = .call nnn) ∧ t.pc = addrTarget nnn) ∨
    (∃ nnn, i = .jpV0 nnn ∧ t.pc = indexedTarget nnn s) ∨
    (i = .ret ∧ ∃ j : Fin 16, j.val + 1 = s.sp.val ∧ t.pc = s.stack[j.val]) := by
  cases h with
  | raised | rndFailed | waited => exact .inl (by simp)
  | jumped n => exact .inr (.inr (.inr (.inl ⟨n, .inl rfl, rfl⟩)))
  | called n h => exact .inr (.inr (.inr (.inl ⟨n, .inr rfl, rfl⟩)))
  | jumpedV0 n => exact .inr (.inr (.inr (.inr (.inl ⟨n, rfl, rfl⟩))))
  | returned h =>
    exact .inr (.inr (.inr (.inr (.inr ⟨rfl, ⟨s.sp.val - 1, by omega⟩, by dsimp only; omega, rfl⟩))))
  | skipped _ c hi =>
    cases c with
    | true => exact .inr (.inr (.inl rfl))
    | false => exact .inr (.inl rfl)
  | _ => exact .inr (.inl (by simp))

/-- Settles O51: an instruction that moves PC by 2 or 4 keeps its parity, and a transfer's target is the odd word. -/
theorem onlyTransfersMakePcOdd : Obligations.OnlyTransfersMakePcOdd := by
  intro i s t heven h hodd
  rcases (exec_effect h).pc_cases with hpc | hpc | hpc | ⟨nnn, hi, hpc⟩ | ⟨nnn, hi, hpc⟩ | ⟨hi, j, hj, hpc⟩ <;>
    rw [hpc] at hodd
  · omega
  · rw [toNat_add_mod_two _ _ (by decide)] at hodd; omega
  · rw [toNat_add_mod_two _ _ (by decide)] at hodd; omega
  · exact .inl ⟨nnn, hi, by rwa [addrTarget_toNat] at hodd⟩
  · exact .inr (.inl ⟨nnn, hi, by rwa [indexedTarget_toNat] at hodd⟩)
  · exact .inr (.inr ⟨hi, j, hj, hodd⟩)

/-! ## The invariant -/

/-- Settles O52: the reset state lists no byte, has PC 0x200, no live entry and an empty latch. -/
theorem resetMeetsInvariant : Obligations.ResetMeetsInvariant :=
  ⟨wf_nil, by decide, fun j hj => absurd hj (Nat.not_lt_zero _), nofun⟩

section
variable {s t : State}

/-- A latched fault that a cycle can raise keeps the invariant. -/
theorem Inv.latch_legitimate (h : Inv s) {f : Fault} (hf : f.legitimate) : Inv (s.latch f) where
  memory := h.memory
  pcBound := h.pcBound
  returnBound := h.returnBound
  latch g hg := by cases hg; exact hf

/-- The invariant depends on memory, PC, the stack, its depth and the latch alone. -/
theorem Inv.congr (h : Inv s) (hmem : t.mem.wf) (hpc : t.pc.toNat ≤ 0x10FE) (hstack : t.stack = s.stack) (hsp : t.sp = s.sp)
    (hf : t.fault = s.fault) : Inv t where
  memory := hmem
  pcBound := hpc
  returnBound j hj := by
    rw [hsp] at hj
    simpa only [hstack] using h.returnBound j hj
  latch f ht := h.latch f (hf ▸ ht)

/-- PC after an instruction that was fetched: two words past memory's end at most, or a transfer's target. -/
theorem Effect.pc_le {i : Instr} (he : Effect s i t) (h : Inv s) (hp : s.pc.toNat + 1 < 4096) : t.pc.toNat ≤ 0x10FE := by
  have hnext (d : Word) (hd : d.toNat ≤ 4) : (s.pc + d).toNat ≤ 0x10FE := by
    rw [BitVec.toNat_add]
    exact (Nat.mod_le _ _).trans (by omega)
  rcases he.pc_cases with hpc | hpc | hpc | ⟨nnn, -, hpc⟩ | ⟨nnn, -, hpc⟩ | ⟨-, j, hj, hpc⟩ <;> rw [hpc]
  · exact h.pcBound
  · exact hnext 2 (by decide)
  · exact hnext 4 (by decide)
  · rw [addrTarget_toNat]
    have := nnn.isLt
    omega
  · rw [indexedTarget_toNat]
    have := nnn.isLt
    have := (s.readV 0).isLt
    omega
  · exact (h.returnBound j (by omega)).trans (by decide)

/-- A CALL pushes a return address of at most 0x1000, for the CALL itself was fetched. -/
theorem Inv.push_setPc (h : Inv s) (hp : s.pc.toNat + 1 < 4096) (hsp : s.sp.val < 16) (nnn : Addr12) :
    Inv ((s.push (returnAddress s) hsp).setPc (addrTarget nnn)) where
  memory := h.memory
  pcBound := (Effect.called nnn hsp).pc_le h hp
  returnBound j hj := by
    have hj' : j.val < s.sp.val + 1 := hj
    rw [setPc_stack, getElem_push_stack]
    split
    case isTrue =>
      rw [returnAddress, BitVec.toNat_add]
      exact (Nat.mod_le _ _).trans (by simp; omega)
    case isFalse hne => exact h.returnBound j (by omega)
  latch := h.latch

theorem Inv.popPc (h : Inv s) (hp : s.pc.toNat + 1 < 4096) (hsp : 0 < s.sp.val) : Inv (s.popPc hsp) where
  memory := h.memory
  pcBound := (Effect.returned hsp).pc_le h hp
  returnBound j hj := h.returnBound j (Nat.lt_of_lt_of_le hj (Nat.sub_le _ _))
  latch := h.latch

/-- The instruction of a fetched word keeps the invariant. -/
theorem Effect.keeps_inv {i : Instr} (he : Effect s i t) (h : Inv s) (hp : s.pc.toNat + 1 < 4096) : Inv t := by
  have hpc := he.pc_le h hp
  cases he with
  | raised _ f hi hf hl => exact h.latch_legitimate hl
  | rndFailed x kk ha =>
    exact (h.congr (t := s.entropyAsked) h.memory h.pcBound rfl rfl rfl).latch_legitimate trivial
  | called n hsp => exact h.push_setPc hp hsp n
  | returned hsp => exact h.popPc hp hsp
  | waited x hk => exact h
  | stored _ bs hb hi => exact h.congr (wf_writeBytes bs h.memory hb) hpc (by simp) (by simp) (by simp)
  | _ => exact h.congr (by simpa using h.memory) hpc (by simp) (by simp) (by simp)

end

/-- Settles O53: a fault of the fetch or the decoder latches itself, and every effect of an instruction keeps each part of the
invariant. -/
theorem stepKeepsInvariant : Obligations.StepKeepsInvariant := by
  intro s t hinv h
  obtain ⟨-, ⟨-, f, -, hl, rfl⟩ | ⟨hp, i, -, he⟩⟩ := step_effect h
  · exact hinv.latch_legitimate hl
  · exact he.keeps_inv hinv hp

/-! ## The timers' ticks (60_exceptions.md R225) -/

/-- Settles O41: by induction on the number of ticks, the last one taken off. -/
theorem ticksNeverGoBelowZero : Obligations.TicksNeverGoBelowZero := by
  intro n s
  induction n with
  | zero => exact ⟨rfl, rfl⟩
  | succ n ih =>
    obtain ⟨hdt, hst⟩ := ih
    rw [Function.iterate_succ_apply', tickTimers_dt, tickTimers_st, tickTimer_toNat, tickTimer_toNat, hdt, hst]
    exact ⟨Nat.sub_sub _ _ _, Nat.sub_sub _ _ _⟩

end Sys2Proof.Machine
end

section
namespace Sys2Proof.Machine

/-! ## Reset (70_reset_and_hazards.md R240 to R242) -/

section
variable {font : List Byte}

/-- The canonical font fills the unlisted bytes below 80. -/
theorem unlistedByte_above_font {a : Nat} (h : 80 ≤ a) : unlistedByte a = 0 :=
  List.getD_eq_default _ _ (by exact h)

/-- Memory after a reset: the font and then zeros. -/
theorem readByte_hostReset (hfont : font.length = 80) (s : State) (a : Nat) :
    (hostReset font s).readByte a = if a < 80 then font.getD a 0 else 0 := by
  change Memory.read (Memory.writeBytes [] 0 font) a = _
  rw [read_writeBytes, hfont, Nat.zero_add, Nat.sub_zero]
  split
  case isTrue h => rw [if_pos h.2]
  case isFalse h =>
    have ha : 80 ≤ a := by omega
    rw [if_neg (by omega)]
    exact unlistedByte_above_font ha

theorem hostReset_pc (font : List Byte) (s : State) : (hostReset font s).pc = 0x200 := rfl

theorem hostReset_inv (hfont : font.length = 80) (s : State) : Inv (hostReset font s) where
  memory := wf_writeBytes font wf_nil (by rw [hfont]; decide)
  pcBound := by rw [hostReset_pc]; decide
  returnBound j hj := absurd hj (Nat.not_lt_zero _)
  latch f hf := by cases hf

end

/-- Settles O55: reset writes the font over zeros and every other field from the reset state, and the canonical font leaves no
byte to list. -/
theorem resetSetsEveryField : Obligations.ResetSetsEveryField := by
  intro font s
  refine ⟨fun hfont => ?length80, fun hfont => if_neg hfont, ?canonical⟩
  case length80 =>
    refine ⟨_, transact_reset hfont s, fun a ha => ?_, fun a ha => ?_, fun r => ?_, rfl, rfl, rfl, fun j => ?_, rfl, rfl,
      pixel_clear, fun k => ?_, rfl⟩
    · rw [readByte_hostReset hfont, if_pos ha]
    · rw [readByte_hostReset hfont, if_neg (by omega)]
    · exact Vector.getElem_replicate _
    · exact Vector.getElem_replicate _
    · exact Vector.getElem_replicate _
  case canonical =>
    have hmem : Memory.writeBytes [] Config.fontBase canonicalFont = [] := by decide
    rw [hostReset, hmem]
    rfl

/-! ## Program load and boot (70_reset_and_hazards.md R243, R244) -/

section
variable {bytes : List Byte}

theorem transact_loadProgram (h : bytes.length ≤ 3584) (s : State) :
    transact (.loadProgram bytes) s = .next (loadBytes bytes s, .loaded) := if_neg (Nat.not_lt.2 h)

theorem readByte_loadBytes (bytes : List Byte) (s : State) (a : Nat) : (loadBytes bytes s).readByte a =
    if 0x200 ≤ a ∧ a < 0x200 + bytes.length then bytes.getD (a - 0x200) 0 else s.readByte a :=
  read_writeBytes bytes s.mem 0x200 a

/-- Byte j of a loaded program. -/
theorem readByte_loadBytes_program {j : Nat} (hj : j < bytes.length) (s : State) :
    (loadBytes bytes s).readByte (0x200 + j) = bytes.getD j 0 := by
  rw [readByte_loadBytes, if_pos (by omega), Nat.add_sub_cancel_left]

theorem frameExcept_loadBytes (bytes : List Byte) (s : State) :
    FrameExcept [] ((List.range bytes.length).map (0x200 + ·)) [] s (loadBytes bytes s) := by
  constructor
  case memory =>
    intro a ha
    rw [readByte_loadBytes, if_neg]
    rintro ⟨hlow, hhigh⟩
    exact ha (List.mem_map.2 ⟨a - 0x200, List.mem_range.2 (by omega), by omega⟩)
  case registers => exact fun r _ => readV_congr rfl r
  all_goals simp

theorem loadBytes_inv {s : State} (h : Inv s) (hlen : bytes.length ≤ 3584) : Inv (loadBytes bytes s) :=
  h.congr (wf_writeBytes bytes h.memory (by simp only [Config.progBase, Config.memSize]; omega)) h.pcBound rfl rfl rfl

end

/-- Settles O56: the two sides of the length check; the load is one block write at 0x200. -/
theorem programLoadCopiesOrRefuses : Obligations.ProgramLoadCopiesOrRefuses := by
  intro bytes s
  refine ⟨fun h => ?_, fun h => if_pos h⟩
  exact ⟨_, transact_loadProgram h s, fun j hj => readByte_loadBytes_program hj s, rfl, frameExcept_loadBytes bytes s⟩

/-- Settles O57: PC is where the load puts the program's first two bytes, and where reset has left zeros. -/
theorem bootRunsTheFirstInstruction : Obligations.BootRunsTheFirstInstruction := by
  intro font s hfont
  refine ⟨_, transact_reset hfont s, fun hi lo rest i hlen hdecode => ?program, ?empty⟩
  case program =>
    have hbytes : (hi :: lo :: rest).length ≤ 3584 := by simp only [List.length_cons]; omega
    refine ⟨_, transact_loadProgram hbytes _, rfl, step_instr rfl (by rw [loadBytes_pc, hostReset_pc]; decide) ?_⟩
    have hword : wordAtPc (loadBytes (hi :: lo :: rest) (hostReset font s)) = wordOfBytes hi lo :=
      congrArg₂ wordOfBytes (readByte_loadBytes_program (j := 0) (by simp) _)
        (readByte_loadBytes_program (j := 1) (by simp) _)
    rw [hword, hdecode]
  case empty =>
    have hzero (a : Nat) (ha : 80 ≤ a) : (hostReset font s).readByte a = 0 := by
      rw [readByte_hostReset hfont, if_neg (by omega)]
    have hfetch : fetch (hostReset font s) = .ok 0x0000 := by
      rw [fetch_eq_ok (by rw [hostReset_pc]; decide), hostReset_pc, hzero _ (by decide), hzero _ (by decide)]
      rfl
    exact step_of_unknownOpcode rfl hfetch (by decide)

/-! ## The host's other calls (60_exceptions.md R221 to R223) -/

theorem transact_setKey {k : Nat} (hk : k < 16) (pressed : Bool) (s : State) :
    transact (.setKey k pressed) s = .next (setKey ⟨k, hk⟩ pressed s, .done) := dif_pos hk

/-- Settles O58: the two sides of the key number's check; the readouts answer the state they read. -/
theorem keySetterAndReadouts : Obligations.KeySetterAndReadouts := by
  intro k pressed s
  refine ⟨fun hk => ⟨_, transact_setKey hk pressed s, fun j => ?_, rfl⟩, fun hk => dif_neg (Nat.not_lt.2 hk), rfl,
    _, rfl, readBeep_iff s⟩
  simp only [setKey_key, Vector.getElem_set, eq_comm (a := j.val)]

/-! ## Every transaction keeps the invariant (60_exceptions.md R201) -/

/-- A cycle the host asks for is a step, or leaves a latched machine alone. -/
theorem transact_cycle_cases {s t : State} {r : Reply} (h : transact .runInstructionCycle s = .next (t, r)) :
    t = s ∨ step s = .next t := by
  cases hs : step s with
  | next u =>
    rw [transact_cycle hs] at h
    cases h
    exact .inr rfl
  | fault f =>
    simp only [transact, runInstructionCycle, hs] at h
    cases h
    exact .inl rfl
  | refused q =>
    simp only [transact, runInstructionCycle, hs] at h
    cases h

/-- Settles O54: by the transaction; the cycle is a step, and no other call touches PC, the stack or the latch but reset. -/
theorem transactionsKeepInvariant : Obligations.TransactionsKeepInvariant := by
  intro a s t r hinv h
  cases a with
  | reset font =>
    simp only [transact] at h
    split at h
    case isTrue hfont => cases h; exact hostReset_inv hfont s
    case isFalse => cases h
  | loadProgram bytes =>
    simp only [transact] at h
    split at h
    case isTrue => cases h; exact hinv
    case isFalse hlen => cases h; exact loadBytes_inv hinv (Nat.not_lt.1 hlen)
  | runInstructionCycle =>
    rcases transact_cycle_cases h with rfl | hstep
    · exact hinv
    · exact stepKeepsInvariant s t hinv hstep
  | tickTimers => cases h; exact hinv.congr hinv.memory hinv.pcBound rfl rfl rfl
  | readDisplay | readBeep => cases h; exact hinv
  | setKey k pressed =>
    simp only [transact] at h
    split at h
    case isTrue => cases h; exact hinv.congr hinv.memory hinv.pcBound rfl rfl rfl
    case isFalse => cases h

end Sys2Proof.Machine
end

section
namespace Sys2Proof.Machine

/-! ## A sprite as the list of the pixels it toggles (44_display.md R181, R182)

The nested loops of a draw are one loop over these pixels. No pixel occurs twice in the list, so each is tested and toggled
while it still has its old value. -/

/-- Toggle pixels in order, noting a collision with each one that is set. -/
def toggleAll (cells : List (Fin 64 × Fin 32)) (acc : Display × Bool) : Display × Bool :=
  cells.foldl (fun acc q => drawPixel q.1 q.2 acc) acc

/-- The pixels of one sprite row. -/
def rowCells (cx : Byte) (py : Fin 32) (b : Byte) : List (Fin 64 × Fin 32) :=
  ((List.range 8).filter (spriteBit b)).map fun c => (spriteColumn cx c, py)

/-- The pixels of a sprite. -/
def spriteCells (cx cy : Byte) (rowByte : Nat → Byte) (n : Nat) : List (Fin 64 × Fin 32) :=
  (List.range n).flatMap fun r => rowCells cx (spriteRow cy r) (rowByte r)

theorem drawRow_eq_toggleAll (cx : Byte) (py : Fin 32) (b : Byte) (acc : Display × Bool) :
    drawRow cx py b acc = toggleAll (rowCells cx py b) acc := by
  rw [drawRow, toggleAll, rowCells, List.foldl_map, List.foldl_filter]

theorem drawSprite_eq_toggleAll (cx cy : Byte) (rowByte : Nat → Byte) (n : Nat) (d : Display) :
    drawSprite cx cy rowByte n d = toggleAll (spriteCells cx cy rowByte n) (d, false) := by
  simp only [drawSprite, drawRow_eq_toggleAll]
  rw [toggleAll, spriteCells, List.foldl_flatMap]
  rfl

/-! ### What toggling a list without repetition does -/

section
variable {cells : List (Fin 64 × Fin 32)}

theorem pixel_toggleAll (h : cells.Nodup) (acc : Display × Bool) (px : Fin 64) (py : Fin 32) :
    (toggleAll cells acc).1.pixel px py = (acc.1.pixel px py ^^ decide ((px, py) ∈ cells)) := by
  induction cells generalizing acc with
  | nil => simp [toggleAll]
  | cons q cells ih =>
    obtain ⟨hq, hcells⟩ := List.nodup_cons.1 h
    change (toggleAll cells (drawPixel q.1 q.2 acc)).1.pixel px py = _
    rw [ih hcells, drawPixel, pixel_toggle]
    by_cases hpq : (px, py) = q
    · subst hpq
      simp [hq]
    · have hne : ¬(px = q.1 ∧ py = q.2) := fun hp => hpq (Prod.ext hp.1 hp.2)
      simp [hne, hpq]

theorem collision_toggleAll (h : cells.Nodup) (acc : Display × Bool) :
    (toggleAll cells acc).2 = (acc.2 || decide (∃ q ∈ cells, acc.1.pixel q.1 q.2 = true)) := by
  induction cells generalizing acc with
  | nil => simp [toggleAll]
  | cons q cells ih =>
    obtain ⟨hq, hcells⟩ := List.nodup_cons.1 h
    have hold (p : Fin 64 × Fin 32) (hp : p ∈ cells) : (acc.1.toggle q.1 q.2).pixel p.1 p.2 = acc.1.pixel p.1 p.2 := by
      rw [pixel_toggle, if_neg]
      rintro ⟨hx, hy⟩
      exact hq (Prod.ext hx hy ▸ hp)
    change (toggleAll cells (drawPixel q.1 q.2 acc)).2 = _
    rw [ih hcells, drawPixel, Bool.or_assoc]
    congr 1
    have hexists : (∃ p ∈ cells, (acc.1.toggle q.1 q.2).pixel p.1 p.2 = true) ↔
        ∃ p ∈ cells, acc.1.pixel p.1 p.2 = true :=
      exists_congr fun p => and_congr_right fun hp => by rw [hold p hp]
    simp [hexists]

end

/-! ### The pixels of a sprite are distinct, and are those the closed form names -/

/-- The column of sprite pixel c is px exactly when c is px's distance from the sprite's column. -/
theorem spriteColumn_eq_iff (cx : Byte) (px : Fin 64) {c : Nat} (hc : c < 64) :
    spriteColumn cx c = px ↔ c = (px.val + 256 - cx.toNat) % 64 := by
  have := cx.isLt
  have hval : (spriteColumn cx c).val = (cx.toNat + c) % 64 := rfl
  rw [Fin.ext_iff, hval]
  omega

/-- The row of sprite row r is py exactly when r is py's distance from the sprite's row. -/
theorem spriteRow_eq_iff (cy : Byte) (py : Fin 32) {r : Nat} (hr : r < 32) :
    spriteRow cy r = py ↔ r = (py.val + 256 - cy.toNat) % 32 := by
  have := cy.isLt
  have hval : (spriteRow cy r).val = (cy.toNat + r) % 32 := rfl
  rw [Fin.ext_iff, hval]
  omega

theorem mem_rowCells {cx b : Byte} {qy py : Fin 32} {px : Fin 64} :
    (px, py) ∈ rowCells cx qy b ↔ py = qy ∧ ∃ c < 8, spriteBit b c = true ∧ spriteColumn cx c = px := by
  simp only [rowCells, List.mem_map, List.mem_filter, List.mem_range, Prod.mk.injEq]
  constructor
  · rintro ⟨c, ⟨hc, hbit⟩, hcol, rfl⟩
    exact ⟨rfl, c, hc, hbit, hcol⟩
  · rintro ⟨rfl, c, hc, hbit, hcol⟩
    exact ⟨c, ⟨hc, hbit⟩, hcol, rfl⟩

theorem nodup_rowCells (cx b : Byte) (py : Fin 32) : (rowCells cx py b).Nodup := by
  refine List.Nodup.map_on ?_ (List.nodup_range.filter _)
  intro c hc e he hce
  have hc8 : c < 8 := List.mem_range.1 (List.mem_of_mem_filter hc)
  have he8 : e < 8 := List.mem_range.1 (List.mem_of_mem_filter he)
  have hcol : spriteColumn cx c = spriteColumn cx e := congrArg Prod.fst hce
  rw [(spriteColumn_eq_iff cx _ (by omega)).1 hcol, ← (spriteColumn_eq_iff cx _ (by omega)).1 rfl]

theorem nodup_spriteCells (cx cy : Byte) (rowByte : Nat → Byte) {n : Nat} (hn : n ≤ 32) :
    (spriteCells cx cy rowByte n).Nodup := by
  refine List.nodup_flatMap.2 ⟨fun r _ => nodup_rowCells _ _ _, ?_⟩
  refine List.Pairwise.imp_of_mem ?_ List.nodup_range
  rintro r q hr hq hne ⟨px, py⟩ hpr hpq
  have hr32 : r < 32 := (List.mem_range.1 hr).trans_le hn
  have hq32 : q < 32 := (List.mem_range.1 hq).trans_le hn
  have hrow : py = spriteRow cy r := (mem_rowCells.1 hpr).1
  have hrow' : py = spriteRow cy q := (mem_rowCells.1 hpq).1
  exact hne (((spriteRow_eq_iff cy py hr32).1 hrow.symm).trans ((spriteRow_eq_iff cy py hq32).1 hrow'.symm).symm)

/-- The loop's pixels are the covered ones. -/
theorem mem_spriteCells_iff (s : State) (x y : RegNum) {n : Nat} (hn : n ≤ 32) (px : Fin 64) (py : Fin 32) :
    (px, py) ∈ spriteCells (s.readV x) (s.readV y) (fun r => s.readByte (effAddr s r)) n ↔
      spriteCovers s x y n px py = true := by
  simp only [spriteCells, List.mem_flatMap, List.mem_range, mem_rowCells, spriteCovers, Bool.and_eq_true, decide_eq_true_eq,
    spriteBit]
  constructor
  · rintro ⟨r, hr, hrow, c, hc, hbit, hcol⟩
    have hr' := (spriteRow_eq_iff (s.readV y) py (hr.trans_le hn)).1 hrow.symm
    have hc' := (spriteColumn_eq_iff (s.readV x) px (by omega)).1 hcol
    rw [← hr', ← hc']
    exact ⟨⟨hc, hr⟩, hbit⟩
  · rintro ⟨⟨hc, hr⟩, hbit⟩
    exact ⟨_, hr, ((spriteRow_eq_iff _ py (hr.trans_le hn)).2 rfl).symm, _, hc, hbit,
      (spriteColumn_eq_iff _ px (by omega)).2 rfl⟩

/-! ### The draw -/

section
variable (s : State) (x y : RegNum) {n : Nat}

theorem pixel_drawnSprite (hn : n ≤ 32) (px : Fin 64) (py : Fin 32) :
    (drawnSprite x y n s).1.pixel px py = (s.disp.pixel px py ^^ spriteCovers s x y n px py) := by
  rw [drawnSprite, drawSprite_eq_toggleAll, pixel_toggleAll (nodup_spriteCells _ _ _ hn)]
  simp only [mem_spriteCells_iff s x y hn, Bool.decide_eq_true]

theorem collision_drawnSprite (hn : n ≤ 32) : (drawnSprite x y n s).2 =
    decide (∃ px py, spriteCovers s x y n px py = true ∧ s.disp.pixel px py = true) := by
  rw [drawnSprite, drawSprite_eq_toggleAll, collision_toggleAll (nodup_spriteCells _ _ _ hn)]
  simp only [Prod.exists, mem_spriteCells_iff s x y hn, Bool.false_or]

end

/-- Settles O45: the draw toggles the covered pixels once each, and its collision is with one of them. -/
theorem spriteDrawIsXorWithWraparound : Obligations.SpriteDrawIsXorWithWraparound := by
  intro x y n s hn hin
  refine ⟨_, checked_inside hin _, pixel_drawnSprite s x y (by omega), ?_, rfl, frameExcept_drw s _ _⟩
  rw [readV_advance, readV_setV, if_pos rfl, collision_drawnSprite s x y (by omega), collisionFlag]

/-- What a draw covers depends on the two coordinates, I and memory. -/
theorem spriteCovers_congr {s t : State} {x y : RegNum} (hx : t.readV x = s.readV x) (hy : t.readV y = s.readV y)
    (hi : t.i = s.i) (hmem : ∀ a, t.readByte a = s.readByte a) (n : Nat) (px : Fin 64) (py : Fin 32) :
    spriteCovers t x y n px py = spriteCovers s x y n px py := by
  simp only [spriteCovers, effAddr, hx, hy, hi, hmem]

/-- Settles O46: the first draw's frame keeps what the second one covers, and XOR with the same bit twice is the identity. -/
theorem secondDrawErasesTheFirst : Obligations.SecondDrawErasesTheFirst := by
  intro x y n s hn hx hy hin
  obtain ⟨t, ht, hfirst, -, -, hframe⟩ := spriteDrawIsXorWithWraparound x y n s hn hin
  have hi : t.i = s.i := hframe.index (by simp)
  obtain ⟨u, hu, hsecond, -⟩ := spriteDrawIsXorWithWraparound x y n t hn (by rwa [hi])
  refine ⟨t, u, ht, hu, fun px py => ?_⟩
  have hcovers : spriteCovers t x y n px py = spriteCovers s x y n px py :=
    spriteCovers_congr (hframe.registers x (by simpa using hx)) (hframe.registers y (by simpa using hy)) hi
      (fun a => hframe.memory a (by simp)) n px py
  rw [hsecond, hfirst, hcovers, Bool.xor_assoc, Bool.xor_self, Bool.xor_false]

end Sys2Proof.Machine
end
